-- ==== Sys2Proof/Word.lean ====
section
/-! DEFINITION. The word types of the core (00_scope.md R6, R9, R10). -/

namespace Sys2Proof

/-- An 8-bit value: a general register, a timer, a byte of memory (R6: V_WIDTH, TIMER_WIDTH). -/
abbrev Byte := BitVec 8

/-- A 16-bit value: an instruction word, or a register stored in 16 bits (R6: INSTR_WIDTH, PC_WIDTH, I_WIDTH). -/
abbrev Word := BitVec 16

/-- The number of a general register V0..VF, "selected by a 4-bit register field" (R21). -/
abbrev Reg := Fin 16

end Sys2Proof
end

