-- ==== Sys2Proof/Syntax.lean ====
section
/-! DEFINITION. The instructions: one constructor per row of spec/opcode_table.json (30_encoding.md R85). -/

namespace Sys2Proof

/-- The 34 instructions (R2, R85). `x` and `y` are the X and Y fields, `nn` the immediate NN, `nnn` the address NNN
and `n` the row count N of R82; NNN and N are plain numbers whose bounds WellFormed checks. SHR and SHL keep their Y
field, which only SHIFT_USES_VY reads (R175). JP_V0's X field is the top nibble of its NNN (R82, R148). -/
inductive Instr where
  /-- 00E0 CLS -/
  | cls
  /-- 00EE RET -/
  | ret
  /-- 1NNN JP NNN -/
  | jp (nnn : Nat)
  /-- 2NNN CALL NNN -/
  | call (nnn : Nat)
  /-- 3XNN SE Vx, NN -/
  | seImm (x : Reg) (nn : Byte)
  /-- 4XNN SNE Vx, NN -/
  | sneImm (x : Reg) (nn : Byte)
  /-- 5XY0 SE Vx, Vy -/
  | seReg (x y : Reg)
  /-- 6XNN LD Vx, NN -/
  | ldImm (x : Reg) (nn : Byte)
  /-- 7XNN ADD Vx, NN -/
  | addImm (x : Reg) (nn : Byte)
  /-- 8XY0 LD Vx, Vy -/
  | ldReg (x y : Reg)
  /-- 8XY1 OR Vx, Vy -/
  | orReg (x y : Reg)
  /-- 8XY2 AND Vx, Vy -/
  | andReg (x y : Reg)
  /-- 8XY3 XOR Vx, Vy -/
  | xorReg (x y : Reg)
  /-- 8XY4 ADD Vx, Vy -/
  | addReg (x y : Reg)
  /-- 8XY5 SUB Vx, Vy -/
  | sub (x y : Reg)
  /-- 8XY6 SHR Vx, Vy -/
  | shr (x y : Reg)
  /-- 8XY7 SUBN Vx, Vy -/
  | subn (x y : Reg)
  /-- 8XYE SHL Vx, Vy -/
  | shl (x y : Reg)
  /-- 9XY0 SNE Vx, Vy -/
  | sneReg (x y : Reg)
  /-- ANNN LD I, NNN -/
  | ldI (nnn : Nat)
  /-- BNNN JP V0, NNN -/
  | jpV0 (nnn : Nat)
  /-- CXNN RND Vx, NN -/
  | rnd (x : Reg) (nn : Byte)
  /-- DXYN DRW Vx, Vy, N -/
  | drw (x y : Reg) (n : Nat)
  /-- EX9E SKP Vx -/
  | skp (x : Reg)
  /-- EXA1 SKNP Vx -/
  | sknp (x : Reg)
  /-- FX07 LD Vx, DT -/
  | ldVxDt (x : Reg)
  /-- FX0A LD Vx, K -/
  | ldVxK (x : Reg)
  /-- FX15 LD DT, Vx -/
  | ldDt (x : Reg)
  /-- FX18 LD ST, Vx -/
  | ldSt (x : Reg)
  /-- FX1E ADD I, Vx -/
  | addI (x : Reg)
  /-- FX29 LD F, Vx -/
  | ldF (x : Reg)
  /-- FX33 LD B, Vx -/
  | ldB (x : Reg)
  /-- FX55 LD [I], Vx -/
  | ldMemVx (x : Reg)
  /-- FX65 LD Vx, [I] -/
  | ldVxMem (x : Reg)
deriving DecidableEq, Repr

end Sys2Proof
end

