-- ==== Sys2Proof/Decode.lean ====
section
/-! DEFINITION. The decoder, total on every word and every byte list (30_encoding.md R81, R82, R86 to R88), and after
it the encoder and the rows of spec/opcode_table.json (R85). -/

namespace Sys2Proof

/-- Why a word is INVALID: the class whose selector no row matches (the rows of R88), or too few bytes for a word. -/
inductive InvalidWord where
  /-- 0NNN other than 00E0 and 00EE -/
  | class0
  /-- 5XYN with N ≠ 0 -/
  | class5
  /-- 8XYN with N in 8..D or F -/
  | class8
  /-- 9XYN with N ≠ 0 -/
  | class9
  /-- EXNN with NN neither 9E nor A1 -/
  | classE
  /-- FXNN with NN none of the nine selectors -/
  | classF
  /-- fewer than the 2 bytes that every instruction takes (R80) -/
  | truncated
deriving DecidableEq, Repr

/-- What decoding gives: "one of the 34 instructions … or INVALID" (R116). -/
inductive Decoded where
  | instr (i : Instr)
  | invalid (why : InvalidWord)
deriving DecidableEq, Repr

/-- `v[hi:lo]`, the unsigned field of bits hi down to lo (R9). -/
def bitField (v hi lo : Nat) : Nat := v / 2 ^ lo % 2 ^ (hi + 1 - lo)

/-- The opcode class w[15:12] (R81). -/
def fieldClass (w : Nat) : Nat := bitField w 15 12
/-- X = w[11:8] (R82). -/
def fieldX (w : Nat) : Reg := Fin.ofNat 16 (bitField w 11 8)
/-- Y = w[7:4] (R82). -/
def fieldY (w : Nat) : Reg := Fin.ofNat 16 (bitField w 7 4)
/-- N = w[3:0] (R82). -/
def fieldN (w : Nat) : Nat := bitField w 3 0
/-- NN = w[7:0] (R82). -/
def fieldNN (w : Nat) : Nat := bitField w 7 0
/-- NN as the 8-bit immediate it is used as (R83). -/
def immNN (w : Nat) : Byte := BitVec.ofNat 8 (fieldNN w)
/-- NNN = w[11:0] (R82). -/
def fieldNNN (w : Nat) : Nat := bitField w 11 0

/-- Class 0: the whole-word patterns 00E0 and 00EE (R86). -/
def decodeClass0 (w : Nat) : Decoded :=
  if w = 0x00E0 then .instr .cls
  else if w = 0x00EE then .instr .ret
  else .invalid .class0

/-- Class 5: 5XY0. -/
def decodeClass5 (w : Nat) : Decoded :=
  if fieldN w = 0 then .instr (.seReg (fieldX w) (fieldY w)) else .invalid .class5

/-- Class 8: the low nibble selects (R81, R85). -/
def decodeClass8 (w : Nat) : Decoded :=
  match fieldN w with
  | 0x0 => .instr (.ldReg (fieldX w) (fieldY w))
  | 0x1 => .instr (.orReg (fieldX w) (fieldY w))
  | 0x2 => .instr (.andReg (fieldX w) (fieldY w))
  | 0x3 => .instr (.xorReg (fieldX w) (fieldY w))
  | 0x4 => .instr (.addReg (fieldX w) (fieldY w))
  | 0x5 => .instr (.sub (fieldX w) (fieldY w))
  | 0x6 => .instr (.shr (fieldX w) (fieldY w))
  | 0x7 => .instr (.subn (fieldX w) (fieldY w))
  | 0xE => .instr (.shl (fieldX w) (fieldY w))
  | _ => .invalid .class8

/-- Class 9: 9XY0. -/
def decodeClass9 (w : Nat) : Decoded :=
  if fieldN w = 0 then .instr (.sneReg (fieldX w) (fieldY w)) else .invalid .class9

/-- Class E: the low byte selects (R81, R85). -/
def decodeClassE (w : Nat) : Decoded :=
  if fieldNN w = 0x9E then .instr (.skp (fieldX w))
  else if fieldNN w = 0xA1 then .instr (.sknp (fieldX w))
  else .invalid .classE

/-- Class F: the low byte selects (R81, R85). -/
def decodeClassF (w : Nat) : Decoded :=
  if fieldNN w = 0x07 then .instr (.ldVxDt (fieldX w))
  else if fieldNN w = 0x0A then .instr (.ldVxK (fieldX w))
  else if fieldNN w = 0x15 then .instr (.ldDt (fieldX w))
  else if fieldNN w = 0x18 then .instr (.ldSt (fieldX w))
  else if fieldNN w = 0x1E then .instr (.addI (fieldX w))
  else if fieldNN w = 0x29 then .instr (.ldF (fieldX w))
  else if fieldNN w = 0x33 then .instr (.ldB (fieldX w))
  else if fieldNN w = 0x55 then .instr (.ldMemVx (fieldX w))
  else if fieldNN w = 0x65 then .instr (.ldVxMem (fieldX w))
  else .invalid .classF

/-- Decoding a word's value by its class nibble (R81); the last arm is class F, since a nibble is below 16. -/
def decodeNat (w : Nat) : Decoded :=
  match fieldClass w with
  | 0x0 => decodeClass0 w
  | 0x1 => .instr (.jp (fieldNNN w))
  | 0x2 => .instr (.call (fieldNNN w))
  | 0x3 => .instr (.seImm (fieldX w) (immNN w))
  | 0x4 => .instr (.sneImm (fieldX w) (immNN w))
  | 0x5 => decodeClass5 w
  | 0x6 => .instr (.ldImm (fieldX w) (immNN w))
  | 0x7 => .instr (.addImm (fieldX w) (immNN w))
  | 0x8 => decodeClass8 w
  | 0x9 => decodeClass9 w
  | 0xA => .instr (.ldI (fieldNNN w))
  | 0xB => .instr (.jpV0 (fieldNNN w))
  | 0xC => .instr (.rnd (fieldX w) (immNN w))
  | 0xD => .instr (.drw (fieldX w) (fieldY w) (fieldN w))
  | 0xE => decodeClassE w
  | _ => decodeClassF w

/-- "Decode is a total function from the 65,536 words to the 34 instructions … plus the value INVALID" (R87). -/
def decode (w : Word) : Decoded := decodeNat w.toNat

/-- The word `{hi, lo}` of a big-endian byte pair, the byte at the lower address in bits 15..8 (R57). -/
def wordOfBytes (hi lo : Byte) : Word := BitVec.ofNat 16 (hi.toNat * 256 + lo.toNat)

/-- The byte of a word at its lower address: bits 15..8 (R57). -/
def highByte (w : Word) : Byte := BitVec.ofNat 8 (w.toNat / 256)

/-- The byte of a word at its higher address: bits 7..0 (R57). -/
def lowByte (w : Word) : Byte := BitVec.ofNat 8 (w.toNat % 256)

/-- The decoder over bytes as they lie in memory: "a decoder always consumes exactly 2 bytes" (R80). -/
def decodeBytes : List Byte → Decoded × List Byte
  | hi :: lo :: rest => (decode (wordOfBytes hi lo), rest)
  | bytes => (.invalid .truncated, bytes)

/-- The instruction the decoder reads from a table word of `nbits` bits with value `w`: the word's two bytes are laid
out big-endian (R57), the bits above `nbits` being 0, and given to `decodeBytes`. -/
def decodeTableWord (nbits w : Nat) : Option Instr :=
  let word := BitVec.ofNat 16 (w % 2 ^ nbits)
  match (decodeBytes [highByte word, lowByte word]).1 with
  | .instr i => some i
  | .invalid _ => none

/-! The encoder, from the patterns of R85 and the field places of R82. -/

/-- A word with X and NN fields: `base` holds the class, and the selector for a fixed NN. -/
def encodeX (base : Nat) (x : Reg) : Nat := base + x.val * 256

/-- A word of the form class, X, NN. -/
def encodeXNN (base : Nat) (x : Reg) (nn : Byte) : Nat := base + x.val * 256 + nn.toNat

/-- A word of the form class, X, Y, selector (or N). -/
def encodeXYN (base : Nat) (x y : Reg) (n : Nat) : Nat := base + x.val * 256 + y.val * 16 + n

/-- The value of an instruction's word. -/
def encodeNat : Instr → Nat
  | .cls => 0x00E0
  | .ret => 0x00EE
  | .jp nnn => 0x1000 + nnn
  | .call nnn => 0x2000 + nnn
  | .seImm x nn => encodeXNN 0x3000 x nn
  | .sneImm x nn => encodeXNN 0x4000 x nn
  | .seReg x y => encodeXYN 0x5000 x y 0x0
  | .ldImm x nn => encodeXNN 0x6000 x nn
  | .addImm x nn => encodeXNN 0x7000 x nn
  | .ldReg x y => encodeXYN 0x8000 x y 0x0
  | .orReg x y => encodeXYN 0x8000 x y 0x1
  | .andReg x y => encodeXYN 0x8000 x y 0x2
  | .xorReg x y => encodeXYN 0x8000 x y 0x3
  | .addReg x y => encodeXYN 0x8000 x y 0x4
  | .sub x y => encodeXYN 0x8000 x y 0x5
  | .shr x y => encodeXYN 0x8000 x y 0x6
  | .subn x y => encodeXYN 0x8000 x y 0x7
  | .shl x y => encodeXYN 0x8000 x y 0xE
  | .sneReg x y => encodeXYN 0x9000 x y 0x0
  | .ldI nnn => 0xA000 + nnn
  | .jpV0 nnn => 0xB000 + nnn
  | .rnd x nn => encodeXNN 0xC000 x nn
  | .drw x y n => encodeXYN 0xD000 x y n
  | .skp x => encodeX 0xE09E x
  | .sknp x => encodeX 0xE0A1 x
  | .ldVxDt x => encodeX 0xF007 x
  | .ldVxK x => encodeX 0xF00A x
  | .ldDt x => encodeX 0xF015 x
  | .ldSt x => encodeX 0xF018 x
  | .addI x => encodeX 0xF01E x
  | .ldF x => encodeX 0xF029 x
  | .ldB x => encodeX 0xF033 x
  | .ldMemVx x => encodeX 0xF055 x
  | .ldVxMem x => encodeX 0xF065 x

/-- The word of a well-formed instruction. -/
def encode (i : Instr) : Word := BitVec.ofNat 16 (encodeNat i)

/-! The rows of spec/opcode_table.json, the machine-readable copy of R85, kept apart from the decoder so that the two
can be compared. -/

/-- One row: "A word decodes to an instruction exactly when `(word & mask) = match`" (R87). -/
structure OpcodeRow where
  mnemonic : String
  mtch : Nat
  mask : Nat
deriving DecidableEq, Repr

/-- The row of each instruction. -/
def Instr.row : Instr → OpcodeRow
  | .cls => ⟨"CLS", 0x00E0, 0xFFFF⟩
  | .ret => ⟨"RET", 0x00EE, 0xFFFF⟩
  | .jp _ => ⟨"JP", 0x1000, 0xF000⟩
  | .call _ => ⟨"CALL", 0x2000, 0xF000⟩
  | .seImm _ _ => ⟨"SE_IMM", 0x3000, 0xF000⟩
  | .sneImm _ _ => ⟨"SNE_IMM", 0x4000, 0xF000⟩
  | .seReg _ _ => ⟨"SE_REG", 0x5000, 0xF00F⟩
  | .ldImm _ _ => ⟨"LD_IMM", 0x6000, 0xF000⟩
  | .addImm _ _ => ⟨"ADD_IMM", 0x7000, 0xF000⟩
  | .ldReg _ _ => ⟨"LD_REG", 0x8000, 0xF00F⟩
  | .orReg _ _ => ⟨"OR", 0x8001, 0xF00F⟩
  | .andReg _ _ => ⟨"AND", 0x8002, 0xF00F⟩
  | .xorReg _ _ => ⟨"XOR", 0x8003, 0xF00F⟩
  | .addReg _ _ => ⟨"ADD_REG", 0x8004, 0xF00F⟩
  | .sub _ _ => ⟨"SUB", 0x8005, 0xF00F⟩
  | .shr _ _ => ⟨"SHR", 0x8006, 0xF00F⟩
  | .subn _ _ => ⟨"SUBN", 0x8007, 0xF00F⟩
  | .shl _ _ => ⟨"SHL", 0x800E, 0xF00F⟩
  | .sneReg _ _ => ⟨"SNE_REG", 0x9000, 0xF00F⟩
  | .ldI _ => ⟨"LD_I", 0xA000, 0xF000⟩
  | .jpV0 _ => ⟨"JP_V0", 0xB000, 0xF000⟩
  | .rnd _ _ => ⟨"RND", 0xC000, 0xF000⟩
  | .drw _ _ _ => ⟨"DRW", 0xD000, 0xF000⟩
  | .skp _ => ⟨"SKP", 0xE09E, 0xF0FF⟩
  | .sknp _ => ⟨"SKNP", 0xE0A1, 0xF0FF⟩
  | .ldVxDt _ => ⟨"LD_VX_DT", 0xF007, 0xF0FF⟩
  | .ldVxK _ => ⟨"LD_VX_K", 0xF00A, 0xF0FF⟩
  | .ldDt _ => ⟨"LD_DT", 0xF015, 0xF0FF⟩
  | .ldSt _ => ⟨"LD_ST", 0xF018, 0xF0FF⟩
  | .addI _ => ⟨"ADD_I", 0xF01E, 0xF0FF⟩
  | .ldF _ => ⟨"LD_F", 0xF029, 0xF0FF⟩
  | .ldB _ => ⟨"LD_B", 0xF033, 0xF0FF⟩
  | .ldMemVx _ => ⟨"LD_MEM_VX", 0xF055, 0xF0FF⟩
  | .ldVxMem _ => ⟨"LD_VX_MEM", 0xF065, 0xF0FF⟩

/-- The 34 rows, in the table's order. -/
def opcodeTable : List OpcodeRow :=
  [Instr.cls.row, Instr.ret.row, (Instr.jp 0).row, (Instr.call 0).row, (Instr.seImm 0 0).row,
    (Instr.sneImm 0 0).row, (Instr.seReg 0 0).row, (Instr.ldImm 0 0).row, (Instr.addImm 0 0).row] ++
  [(Instr.ldReg 0 0).row, (Instr.orReg 0 0).row, (Instr.andReg 0 0).row, (Instr.xorReg 0 0).row,
    (Instr.addReg 0 0).row, (Instr.sub 0 0).row, (Instr.shr 0 0).row, (Instr.subn 0 0).row,
    (Instr.shl 0 0).row, (Instr.sneReg 0 0).row] ++
  [(Instr.ldI 0).row, (Instr.jpV0 0).row, (Instr.rnd 0 0).row, (Instr.drw 0 0 0).row, (Instr.skp 0).row,
    (Instr.sknp 0).row, (Instr.ldVxDt 0).row, (Instr.ldVxK 0).row, (Instr.ldDt 0).row] ++
  [(Instr.ldSt 0).row, (Instr.addI 0).row, (Instr.ldF 0).row, (Instr.ldB 0).row, (Instr.ldMemVx 0).row,
    (Instr.ldVxMem 0).row]

end Sys2Proof
end

