-- ==== Sys2Proof/Config.lean ====
section
/-! DEFINITION. The fixed parameters (00_scope.md R6), the type of the configurable ones (R7), and the free inputs
of an EXEC (R8). The DEFAULTS of the configurable parameters stand in Machine/Defaults.lean. -/

namespace Sys2Proof.Config

/-- MEM_SIZE (R6): addresses 0x000..0xFFF. -/
abbrev memSize : Nat := 4096

/-- FONT_BASE (R6). -/
abbrev fontBase : Nat := 0x050

/-- The first address after FONT_END = 0x09F (R6). -/
abbrev fontLimit : Nat := 0x0A0

/-- FONT_GLYPH_BYTES (R6). -/
abbrev glyphBytes : Nat := 5

/-- PROGRAM_BASE (R6): where LOAD places an image, and the entry point (R290). -/
abbrev programBase : Nat := 0x200

/-- MAX_PROGRAM_BYTES (R6): 0xFFF − 0x200 + 1. -/
abbrev maxProgramBytes : Nat := 3584

/-- STACK_DEPTH (R6). -/
abbrev stackDepth : Nat := 16

/-- FB_WIDTH (R6). -/
abbrev fbWidth : Nat := 64

/-- FB_HEIGHT (R6). -/
abbrev fbHeight : Nat := 32

/-- INVALID_OPCODE_POLICY (R7): what an INVALID word does (R118). -/
inductive InvalidPolicy where
  /-- an INVALID word raises INVALID_OPCODE -/
  | fatal
  /-- an INVALID word only advances PC -/
  | ignore
deriving DecidableEq, Repr

/-- FONT (R7): 80 bytes, 16 glyphs of 5. -/
abbrev Font := Vector Byte 80

/-- The configurable parameters of R7, "each … a named argument of the model". -/
structure Params where
  /-- INVALID_OPCODE_POLICY -/
  invalidOpcodePolicy : InvalidPolicy
  /-- LOAD_STORE_INCREMENTS_I -/
  loadStoreIncrementsI : Bool
  /-- SHIFT_USES_VY -/
  shiftUsesVy : Bool
  /-- JUMP_OFFSET_USES_VX -/
  jumpOffsetUsesVx : Bool
  /-- FONT_REGION_WRITABLE -/
  fontRegionWritable : Bool
  /-- FONT -/
  font : Font
deriving DecidableEq, Repr

/-- FREE VALUE: the key vector KEYS of the n-th EXEC that the script does not spell out, "a free 16-bit input of each
EXEC" under no law (R8, R230, R272). DESIGN CHOICE, log 1, safe. -/
opaque freeKeys : Nat → BitVec 16

/-- FREE VALUE: the random draw RND of the n-th EXEC that the script does not spell out, "a free input under no law"
(R8, R177). DESIGN CHOICE, log 1, safe. -/
opaque freeRnd : Nat → BitVec 8

end Sys2Proof.Config
end

