-- ==== Sys2Proof/Machine/Defaults.lean ====
section
/-! DEFINITION. The default values of the configurable parameters (00_scope.md R7), the default font (20_memory.md R55)
and the entry point (R290). They stand under Machine/ so that they can be mended. Log 3. -/

namespace Sys2Proof.Machine

open Sys2Proof.Config

/-- The glyphs 0 to 7 of R55, five bytes each. -/
def glyphsLow : Vector Byte 40 :=
  (#v[0xF0, 0x90, 0x90, 0x90, 0xF0, 0x20, 0x60, 0x20, 0x20, 0x70] : Vector Byte 10) ++
  (#v[0xF0, 0x10, 0xF0, 0x80, 0xF0, 0xF0, 0x10, 0xF0, 0x10, 0xF0] : Vector Byte 10) ++
  (#v[0x90, 0x90, 0xF0, 0x10, 0x10, 0xF0, 0x80, 0xF0, 0x10, 0xF0] : Vector Byte 10) ++
  (#v[0xF0, 0x80, 0xF0, 0x90, 0xF0, 0xF0, 0x10, 0x20, 0x40, 0x40] : Vector Byte 10)

/-- The glyphs 8 to F of R55, five bytes each. -/
def glyphsHigh : Vector Byte 40 :=
  (#v[0xF0, 0x90, 0xF0, 0x90, 0xF0, 0xF0, 0x90, 0xF0, 0x10, 0xF0] : Vector Byte 10) ++
  (#v[0xF0, 0x90, 0xF0, 0x90, 0x90, 0xE0, 0x90, 0xE0, 0x90, 0xE0] : Vector Byte 10) ++
  (#v[0xF0, 0x80, 0x80, 0x80, 0xF0, 0xE0, 0x90, 0x90, 0x90, 0xE0] : Vector Byte 10) ++
  (#v[0xF0, 0x80, 0xF0, 0x80, 0xF0, 0xF0, 0x80, 0xF0, 0x80, 0x80] : Vector Byte 10)

/-- The default FONT: the table of R55 (glyph 5 from the source, the others the spec's general knowledge, G2, D27). -/
def defaultFont : Font := glyphsLow ++ glyphsHigh

/-- The default of every parameter of R7. -/
def defaultParams : Params where
  invalidOpcodePolicy := .fatal
  loadStoreIncrementsI := false
  shiftUsesVy := false
  jumpOffsetUsesVx := false
  fontRegionWritable := false
  font := defaultFont

/-- PC after RESET: "The entry point is 0x200" (R290). -/
def entryPoint : Word := 0x200

end Sys2Proof.Machine
end

