-- ==== Sys2Proof/Machine/State.lean ====
section
/-! DEFINITION. The state of the machine as plain data (10_state.md R20 to R32), with the model's own record of the
host interface (60_exceptions.md R270), and the state after RESET. -/

namespace Sys2Proof.Machine

open Sys2Proof.Config

/-- Why a step would stop without a next state. EMPTY: every fault of the spec has a described entry (R256) and is a
next state, and the spec names no address or operand that does not exist, so no step of this core stops. Safe. Log 4. -/
inductive Fault where
deriving DecidableEq, Repr

/-- Why an instruction would have no meaning. -/
inductive Refusal where
  /-- Raised by `exec` alone, for an instruction that has no meaning yet; no arm raises it now. Safe. -/
  | notModelled (mnemonic : String)
deriving DecidableEq, Repr

/-- CTRL.FAULT_CODE: "values 1, 6, 7 never stored" (R29), so the legal values are names (R250). Log 10. -/
inductive FaultCode where
  /-- 0: no fault -/
  | none
  /-- 2: fetch with PC = 0xFFF (R252) -/
  | pcOutOfBounds
  /-- 3: 00EE with SP = 0 (R253) -/
  | stackUnderflow
  /-- 4: 2NNN with SP = 16 (R254) -/
  | stackOverflow
  /-- 5: an INVALID word under FATAL (R255) -/
  | invalidOpcode
deriving DecidableEq, Repr

/-- CTRL, the host-visible control record (R29). -/
structure Ctrl where
  /-- HALTED -/
  halted : Bool
  /-- FAULT_CODE -/
  faultCode : FaultCode
  /-- FAULT_PC -/
  faultPc : Word
  /-- FAULT_WORD -/
  faultWord : Word
  /-- FAULT_WORD_VALID -/
  faultWordValid : Bool
  /-- LOADED -/
  loaded : Bool
  /-- STARTED -/
  started : Bool
deriving DecidableEq, Repr

/-- A command of the host (R110), EXEC with the KEYS sample and the RND draw it presents (R8, R270). -/
inductive Command where
  /-- RESET (R291) -/
  | reset
  /-- LOAD(bytes) (R292) -/
  | load (bytes : List Byte)
  /-- EXEC (R111) with its inputs -/
  | exec (keys : BitVec 16) (rnd : Byte)
  /-- TICK (R260) -/
  | tick
deriving DecidableEq, Repr

/-- What a command puts out as its result (R270). RESET and TICK return nothing. -/
inductive CommandResult where
  /-- no result: after RESET or TICK, or before the first command -/
  | none
  /-- EXEC: PROGRESS (R111) -/
  | progress
  /-- EXEC: NO_PROGRESS (R111) -/
  | noProgress
  /-- EXEC: FAULT(code) (R111) -/
  | fault (code : FaultCode)
  /-- LOAD: OK (R292) -/
  | loadOk
  /-- LOAD: PROGRAM_TOO_LARGE, code 1 of R250 (R251) -/
  | programTooLarge
  /-- LOAD: REFUSED (R292) -/
  | loadRefused
deriving DecidableEq, Repr

/-- The host interface: the MODEL's own fields, no state of the spec (R20, R30). Log 1, log 2, log 6. -/
structure Ports where
  /-- KEYS as sampled for the EXEC under way (R230) -/
  keys : BitVec 16
  /-- RND as drawn for the EXEC under way (R177) -/
  rnd : Byte
  /-- the result of the last command (R270) -/
  result : CommandResult
  /-- the commands the host is still to issue, next first (R110) -/
  script : List Command
  /-- how many EXECs have taken their inputs from the free values -/
  draws : Nat
deriving DecidableEq, Repr

/-- M, kept as its differences from the reset contents: see `Memory.wf` in Machine/Ops.lean. -/
abbrev Memory := List Host.Cell

/-- FB[y][x], row y of 32, column x of 64, true = pixel on (R28, R65). -/
abbrev Framebuffer := Vector (Vector Bool 64) 32

/-- The state vector of R20, the parameters of R7 and the host interface. -/
structure State where
  /-- V0..VF (R21) -/
  v : Vector Byte 16
  /-- I (R25) -/
  i : Word
  /-- PC (R24): between commands "the address of the next instruction to fetch" -/
  pc : Word
  /-- STACK[0..15] (R26) -/
  stack : Vector Word 16
  /-- SP (R26): 0..16, the entries in use -/
  sp : Fin 17
  /-- DT (R27) -/
  dt : Byte
  /-- ST (R27) -/
  st : Byte
  /-- M (R28) -/
  mem : Memory
  /-- FB (R28) -/
  fb : Framebuffer
  /-- CTRL (R29) -/
  ctrl : Ctrl
  /-- the parameters of R7, which nothing writes (log 3) -/
  cfg : Params
  /-- the host interface (log 1, log 2) -/
  ports : Ports
deriving DecidableEq, Repr

/-- CTRL after RESET: "all fields 0" (R32). -/
def Ctrl.reset : Ctrl where
  halted := false
  faultCode := .none
  faultPc := 0
  faultWord := 0
  faultWordValid := false
  loaded := false
  started := false

/-- The host interface before any command. DESIGN CHOICE, log 6. -/
def Ports.reset : Ports where
  keys := 0
  rnd := 0
  result := .none
  script := []
  draws := 0

/-- The state after RESET and at power-on (R32, R291): memory lists nothing, so it reads as FONT and zeroes. -/
def State.reset : State where
  v := Vector.replicate 16 0
  i := 0
  pc := entryPoint
  stack := Vector.replicate 16 0
  sp := 0
  dt := 0
  st := 0
  mem := []
  fb := Vector.replicate 32 (Vector.replicate 64 false)
  ctrl := Ctrl.reset
  cfg := defaultParams
  ports := Ports.reset

end Sys2Proof.Machine
end

