-- ==== Sys2Proof/Machine/Ops.lean ====
section
/-! DEFINITION. The named operations over the state: registers, memory, framebuffer, stack, the ends of an instruction,
FAULT ENTRY (60_exceptions.md R256) and beside it RESET, the one way out of HALTED (R259, R291). -/

namespace Sys2Proof.Machine

open Sys2Proof.Config

/-! ## Registers (10_state.md R21 to R27) -/

/-- A number masked to 12 bits, `& 0xFFF`, stored in 16 (R24, R25). -/
def mask12 (t : Nat) : Word := BitVec.ofNat 16 (t % 4096)

/-- `V[x]` (R11). -/
def State.getV (s : State) (x : Reg) : Byte := s.v[x]

/-- `V[x] <- b` (R11). -/
def State.setV (s : State) (x : Reg) (b : Byte) : State := { s with v := s.v.set x b }

/-- VF, register 15 (R22). -/
def regF : Reg := 15

/-- `V[F] <- flag`: 1 or 0 (R22). -/
def State.setFlag (s : State) (flag : Bool) : State := s.setV regF (if flag then 1 else 0)

/-- `PC <- t`: "Every write to PC … stores the written value `& 0xFFF`" (R24). -/
def State.setPc (s : State) (t : Nat) : State := { s with pc := mask12 t }

/-- `I <- t`: "Every write to I stores the written value `& 0xFFF`" (R25). -/
def State.setI (s : State) (t : Nat) : State := { s with i := mask12 t }

/-- `DT <- b` (R27). -/
def State.setDt (s : State) (b : Byte) : State := { s with dt := b }

/-- `ST <- b` (R27). -/
def State.setSt (s : State) (b : Byte) : State := { s with st := b }

/-- The framebuffer replaced as a whole. -/
def State.setFb (s : State) (fb : Framebuffer) : State := { s with fb := fb }

/-- The memory replaced as a whole. -/
def State.setMem (s : State) (mem : Memory) : State := { s with mem := mem }

/-- CTRL replaced as a whole. -/
def State.setCtrl (s : State) (ctrl : Ctrl) : State := { s with ctrl := ctrl }

/-- The host interface replaced as a whole. -/
def State.setPorts (s : State) (ports : Ports) : State := { s with ports := ports }

/-- The result a command puts out (R270). -/
def State.setResult (s : State) (r : CommandResult) : State := s.setPorts { s.ports with result := r }

/-- `npc = (pc + 2) & 0xFFF`, the pre-advanced program counter (R114). -/
def State.npc (s : State) : Nat := (s.pc.toNat + 2) % 4096

/-! ## Memory (20_memory.md R51 to R61) -/

/-- The font region 0x050..0x09F (R51). -/
def inFontRegion (a : Nat) : Bool := fontBase ≤ a && a < fontLimit

/-- What an address that the memory does not list reads as: its contents after RESET, "`M[a] <- 0x00` for every a;
`M[0x050 + k] <- FONT[k]`" (R291). Log 7. -/
def Memory.unlisted (font : Font) (a : Nat) : Byte :=
  if h : fontBase ≤ a ∧ a < fontLimit then font[a - fontBase]'(by simp only [fontBase, fontLimit] at h ⊢; omega) else 0

/-- The byte at an address. -/
def Memory.read (font : Font) : Memory → Nat → Byte
  | [], a => Memory.unlisted font a
  | (b, v) :: m, a => if b = a then v else Memory.read font m a

/-- A cell put in its place by address. -/
def Memory.place (a : Nat) (v : Byte) : Memory → Memory
  | [] => [(a, v)]
  | c :: m => if a < c.1 then (a, v) :: c :: m else c :: Memory.place a v m

/-- The entry of an address taken out. -/
def Memory.drop (m : Memory) (a : Nat) : Memory := m.filter (fun c => c.1 != a)

/-- The byte at an address written, the canonical form kept: a value the unlisted address reads as removes the entry. -/
def Memory.write (font : Font) (m : Memory) (a : Nat) (v : Byte) : Memory :=
  if v = Memory.unlisted font a then Memory.drop m a else Memory.place a v (Memory.drop m a)

/-- THE CANONICAL FORM: addresses strictly rising and below MEM_SIZE, no entry equal to what the unlisted address
reads as. -/
abbrev Memory.wf (font : Font) (m : Memory) : Prop :=
  m.Pairwise (fun c d => c.1 < d.1) ∧ ∀ c ∈ m, c.1 < memSize ∧ c.2 ≠ Memory.unlisted font c.1

/-- Consecutive bytes written from address `a` up (R292's `M[0x200 + k] <- bytes[k]`). -/
def Memory.storeBytes (font : Font) (m : Memory) (a : Nat) : List Byte → Memory
  | [] => m
  | b :: bs => Memory.storeBytes font (Memory.write font m a b) (a + 1) bs

/-- `MemRead(a, 1)` (R60). -/
def State.memRead (s : State) (a : Nat) : Byte := Memory.read s.cfg.font s.mem a

/-- Whether a program's write to `a` is discarded (R53). -/
def State.writeProtected (s : State) (a : Nat) : Bool := inFontRegion a && !s.cfg.fontRegionWritable

/-- `MemWrite(a, 1, v)`: "if 0x050 ≤ a ≤ 0x09F and FONT_REGION_WRITABLE is false, nothing changes; otherwise
`M[a] <- v`" (R61). -/
def State.memWrite (s : State) (a : Nat) (v : Byte) : State :=
  if s.writeProtected a then s else s.setMem (Memory.write s.cfg.font s.mem a v)

/-! ## Framebuffer (20_memory.md R65 to R68) -/

/-- FB[y][x]; false outside the grid, where no one of the core asks (R66, R212). -/
def Framebuffer.pixel (fb : Framebuffer) (x y : Nat) : Bool :=
  if h : y < 32 ∧ x < 64 then (fb[y]'h.1)[x]'h.2 else false

/-- `FbToggle(x, y)`'s write, `FB[y][x] <- was ^ 1` (R67); nothing outside the grid, where no one asks (R212). -/
def Framebuffer.toggle (fb : Framebuffer) (x y : Nat) : Framebuffer :=
  if h : y < 32 ∧ x < 64 then fb.set y ((fb[y]'h.1).set x (!(fb[y]'h.1)[x]'h.2) h.2) h.1 else fb

/-- `FbClear()` (R68). -/
def Framebuffer.clear : Framebuffer := Vector.replicate 32 (Vector.replicate 64 false)

/-! ## The return-address stack (10_state.md R26) -/

/-- "A push writes STACK[SP] then increments SP"; none when SP = 16. -/
def State.push? (s : State) (a : Nat) : Option State :=
  if h : s.sp.val < stackDepth then
    some { s with stack := s.stack.set s.sp.val (mask12 a) h, sp := ⟨s.sp.val + 1, Nat.succ_lt_succ h⟩ }
  else none

/-- "a pop decrements SP then reads STACK[SP]"; none when SP = 0. The popped entry stays (R141). -/
def State.pop? (s : State) : Option (Word × State) :=
  if h : s.sp.val = 0 then none
  else
    have below : s.sp.val - 1 < 16 := by omega
    some (s.stack[s.sp.val - 1], { s with sp := ⟨s.sp.val - 1, Nat.lt_succ_of_lt below⟩ })

/-! ## Fault entry and RESET (60_exceptions.md R256 to R259, 70_reset_and_hazards.md R291) -/

/-- CTRL as a fault leaves it (R256). -/
def Ctrl.faulted (c : Ctrl) (code : FaultCode) (pc : Word) (word : Option Word) : Ctrl :=
  { c with
    halted := true
    faultCode := code
    faultPc := pc
    faultWord := word.getD 0
    faultWordValid := word.isSome }

/-- `raise Fault(code, pc, word)` on the state before the instruction, whose PC is the faulting address: no write of the
instruction is applied, CTRL is written, and EXEC returns FAULT(code) (R256). TAKING A FAULT is a next state: log 4. -/
def raiseFault (code : FaultCode) (word : Option Word) (s : State) : Host.Outcome State Fault Refusal :=
  .next ((s.setCtrl (s.ctrl.faulted code s.pc word)).setResult (.fault code))

/-- RESET as a command, "accepted in any state" (R291): every piece of state to its reset value. There is no other
return from a fault (R259). The parameters and the rest of the host's script stay: log 5. -/
def resetCommand (s : State) : State :=
  { State.reset with cfg := s.cfg, ports := { s.ports with result := .none } }

/-! ## The ends of an instruction (40_instruction_cycle.md R119, R120) -/

/-- COMMIT with result PROGRESS (R111). -/
def State.committed (s : State) : State := s.setResult .progress

/-- The stay update: NO_PROGRESS, nothing architectural changes (R122). -/
def State.stalled (s : State) : State := s.setResult .noProgress

/-- The sequential update `PC <- npc`, committed (R120). -/
def State.advanced (s : State) : State := (s.setPc s.npc).committed

/-- The instruction ends with `PC <- npc` (R117). -/
def advance (s : State) : Host.Outcome State Fault Refusal := .next s.advanced

/-- The absolute, offset and return updates: `PC <- t` (R120). -/
def jumpTo (t : Nat) (s : State) : Host.Outcome State Fault Refusal := .next (s.setPc t).committed

/-- The skip update: "`PC <- (npc + 2) & 0xFFF` when its condition holds and `PC <- npc` otherwise" (R120). -/
def skipIf (cond : Bool) (s : State) : Host.Outcome State Fault Refusal :=
  .next (s.setPc (if cond then s.npc + 2 else s.npc)).committed

/-! ## The passive outputs (60_exceptions.md R270 to R276) -/

/-- The display read port: FB[y][x], "a read with x or y out of range is refused" (R66, R273, K10): none. -/
def State.displayRead (s : State) (x y : Nat) : Option Bool :=
  if y < fbHeight ∧ x < fbWidth then some (Framebuffer.pixel s.fb x y) else none

/-- "SOUND_ON = 1 exactly when ST ≠ 0" (R275). -/
def State.soundOn (s : State) : Bool := s.st != 0

/-- FAULT_CODE as the 3-bit number the host reads (R29, R250). -/
def FaultCode.toBits : FaultCode → BitVec 3
  | .none => 0
  | .pcOutOfBounds => 2
  | .stackUnderflow => 3
  | .stackOverflow => 4
  | .invalidOpcode => 5

/-- The numeric code in a command's result, where R250 gives it one. -/
def CommandResult.code : CommandResult → Option (BitVec 3)
  | .fault c => some c.toBits
  | .programTooLarge => some 1
  | _ => Option.none

end Sys2Proof.Machine
end

