-- ==== Sys2Proof/Machine/Flags.lean ====
section
/-! DEFINITION. The ALU and every flag computation (42_register_immediate.md R160 to R165). A result is computed on
natural numbers and brought to 8 bits by an explicit `mod 256` (R10). -/

namespace Sys2Proof.Machine

/-- `ADD8(a, b)`: the sum mod 256 and "carry = 1 if a + b ≥ 256 else 0" (R161). -/
def add8 (a b : Byte) : Byte × Bool := (BitVec.ofNat 8 ((a.toNat + b.toNat) % 256), decide (256 ≤ a.toNat + b.toNat))

/-- `SUB8(a, b)`: `(a + 256 − b) mod 256` and "noborrow = 1 if a ≥ b else 0" (R162). -/
def sub8 (a b : Byte) : Byte × Bool :=
  (BitVec.ofNat 8 ((a.toNat + 256 - b.toNat) % 256), decide (b.toNat ≤ a.toNat))

/-- `OR8` (R163). -/
def or8 (a b : Byte) : Byte := a ||| b

/-- `AND8` (R163). -/
def and8 (a b : Byte) : Byte := a &&& b

/-- `XOR8` (R163). -/
def xor8 (a b : Byte) : Byte := a ^^^ b

/-- `SHR8(a) = (a >> 1, a[0])` (R164). -/
def shr8 (a : Byte) : Byte × Bool := (BitVec.ofNat 8 (a.toNat / 2), a.getLsbD 0)

/-- `SHL8(a) = ((a << 1) mod 256, a[7])` (R164). -/
def shl8 (a : Byte) : Byte × Bool := (BitVec.ofNat 8 (a.toNat * 2 % 256), a.getLsbD 7)

/-- The write of a result and its flag: "then writes `V[X] <- result`, then writes `V[F] <- flag`" (R165). -/
def State.setResultAndFlag (s : State) (x : Reg) (r : Byte × Bool) : State := (s.setV x r.1).setFlag r.2

end Sys2Proof.Machine
end

