-- ==== Sys2Proof/Machine/Operands.lean ====
section
/-! DEFINITION. The operand forms (30_encoding.md R84): every way an instruction forms a value or an address. -/

namespace Sys2Proof.Machine

open Sys2Proof.Config

/-- `EA(k) = (I + k) mod 4096`, the only data addressing mode (R59, R189). -/
def State.ea (s : State) (k : Nat) : Nat := (s.i.toNat + k) % memSize

/-- The source of SHR and SHL: "SHIFT_USES_VY ? V[Y] : V[X]" (R175, R176). -/
def State.shiftSource (s : State) (x y : Reg) : Byte := if s.cfg.shiftUsesVy then s.getV y else s.getV x

/-- The X field of a BNNN word: the top nibble of its NNN (R82). -/
def jumpRegister (nnn : Nat) : Reg := Fin.ofNat 16 (bitField nnn 11 8)

/-- The offset of BNNN: "JUMP_OFFSET_USES_VX ? V[X] : V[0]" (R148). -/
def State.jumpOffset (s : State) (nnn : Nat) : Byte :=
  if s.cfg.jumpOffsetUsesVx then s.getV (jumpRegister nnn) else s.getV 0

/-- `Key(k) = KEYS[k]`, 1 = pressed, of this EXEC's sample (R230). -/
def State.key (s : State) (k : Nat) : Bool := s.ports.keys.getLsbD k

/-- The key an instruction selects: "the low nibble of Vx" (R230). -/
def State.selectedKey (s : State) (x : Reg) : Nat := (s.getV x).toNat % 16

/-- "the smallest k with Key(k) = 1", if any key is pressed (R233). -/
def State.lowestKey? (s : State) : Option Nat := (List.range 16).find? s.key

/-- The address of the glyph of a value's low nibble: `0x050 + 5 * (v & 0x0F)` (R192). -/
def glyphAddress (v : Byte) : Nat := fontBase + glyphBytes * (v.toNat % 16)

/-- The hundreds digit `v div 100` (R193). -/
def hundreds (v : Byte) : Byte := BitVec.ofNat 8 (v.toNat / 100)

/-- The tens digit `(v div 10) mod 10` (R193). -/
def tens (v : Byte) : Byte := BitVec.ofNat 8 (v.toNat / 10 % 10)

/-- The ones digit `v mod 10` (R193). -/
def ones (v : Byte) : Byte := BitVec.ofNat 8 (v.toNat % 10)

/-- The registers V0..Vx by number, the operand of FX55 and FX65: "for k in 0..X" (R194, R195). -/
def regsUpTo (x : Reg) : List Reg := (List.finRange 16).take (x.val + 1)

/-- I after FX55 and FX65: `(I + X + 1) & 0xFFF` when LOAD_STORE_INCREMENTS_I, else unchanged (R194, R195). -/
def State.stepIndex (s : State) (x : Reg) : State :=
  if s.cfg.loadStoreIncrementsI then s.setI (s.i.toNat + x.val + 1) else s

end Sys2Proof.Machine
end

