-- ==== Sys2Proof/Machine/Alu.lean ====
section
/-! DEFINITION. The ALU and register/immediate instructions (42_register_immediate.md). -/

namespace Sys2Proof.Machine

/-- LD Vx, NN: `V[X] <- NN` (R166). -/
def execLdImm (x : Reg) (nn : Byte) (s : State) : Host.Outcome State Fault Refusal := advance (s.setV x nn)

/-- ADD Vx, NN: `V[X] <- (V[X] + NN) mod 256`, no flag (R167). -/
def execAddImm (x : Reg) (nn : Byte) (s : State) : Host.Outcome State Fault Refusal :=
  advance (s.setV x (add8 (s.getV x) nn).1)

/-- LD Vx, Vy: `V[X] <- V[Y]` (R168). -/
def execLdReg (x y : Reg) (s : State) : Host.Outcome State Fault Refusal := advance (s.setV x (s.getV y))

/-- OR Vx, Vy: no flag (R169). -/
def execOrReg (x y : Reg) (s : State) : Host.Outcome State Fault Refusal :=
  advance (s.setV x (or8 (s.getV x) (s.getV y)))

/-- AND Vx, Vy: no flag (R170). -/
def execAndReg (x y : Reg) (s : State) : Host.Outcome State Fault Refusal :=
  advance (s.setV x (and8 (s.getV x) (s.getV y)))

/-- XOR Vx, Vy: no flag (R171). -/
def execXorReg (x y : Reg) (s : State) : Host.Outcome State Fault Refusal :=
  advance (s.setV x (xor8 (s.getV x) (s.getV y)))

/-- ADD Vx, Vy: the sum, VF = carry (R172). -/
def execAddReg (x y : Reg) (s : State) : Host.Outcome State Fault Refusal :=
  advance (s.setResultAndFlag x (add8 (s.getV x) (s.getV y)))

/-- SUB Vx, Vy: Vx − Vy, VF = no borrow (R173). -/
def execSub (x y : Reg) (s : State) : Host.Outcome State Fault Refusal :=
  advance (s.setResultAndFlag x (sub8 (s.getV x) (s.getV y)))

/-- SUBN Vx, Vy: Vy − Vx, VF = no borrow (R174). -/
def execSubn (x y : Reg) (s : State) : Host.Outcome State Fault Refusal :=
  advance (s.setResultAndFlag x (sub8 (s.getV y) (s.getV x)))

/-- SHR Vx, Vy: the source shifted right by one, VF = its bit 0 (R175). -/
def execShr (x y : Reg) (s : State) : Host.Outcome State Fault Refusal :=
  advance (s.setResultAndFlag x (shr8 (s.shiftSource x y)))

/-- SHL Vx, Vy: the source shifted left by one, VF = its bit 7 (R176). -/
def execShl (x y : Reg) (s : State) : Host.Outcome State Fault Refusal :=
  advance (s.setResultAndFlag x (shl8 (s.shiftSource x y)))

/-- RND Vx, NN: `V[X] <- RND & NN`, RND the draw of this EXEC (R177). -/
def execRnd (x : Reg) (nn : Byte) (s : State) : Host.Outcome State Fault Refusal :=
  advance (s.setV x (and8 s.ports.rnd nn))

end Sys2Proof.Machine
end

