-- ==== Sys2Proof/Machine/ControlFlow.lean ====
section
/-! DEFINITION. The control-flow instructions and CLS (41_control_flow.md). -/

namespace Sys2Proof.Machine

/-- CLS: `FbClear(); PC <- npc` (R140). -/
def execCls (s : State) : Host.Outcome State Fault Refusal := advance (s.setFb Framebuffer.clear)

/-- RET: pop the return address into PC; STACK_UNDERFLOW on an empty stack (R141). -/
def execRet (s : State) : Host.Outcome State Fault Refusal :=
  match s.pop? with
  | some (target, popped) => jumpTo target.toNat popped
  | none => raiseFault .stackUnderflow (some (encode .ret)) s

/-- JP NNN: `PC <- NNN` (R142). -/
def execJp (nnn : Nat) (s : State) : Host.Outcome State Fault Refusal := jumpTo nnn s

/-- CALL NNN: push npc, `PC <- NNN`; STACK_OVERFLOW on a full stack (R143). -/
def execCall (nnn : Nat) (s : State) : Host.Outcome State Fault Refusal :=
  match s.push? s.npc with
  | some pushed => jumpTo nnn pushed
  | none => raiseFault .stackOverflow (some (encode (.call nnn))) s

/-- SE Vx, NN: skip if V[X] = NN (R144). -/
def execSeImm (x : Reg) (nn : Byte) (s : State) : Host.Outcome State Fault Refusal := skipIf (s.getV x == nn) s

/-- SNE Vx, NN: skip if V[X] != NN (R145). -/
def execSneImm (x : Reg) (nn : Byte) (s : State) : Host.Outcome State Fault Refusal := skipIf (s.getV x != nn) s

/-- SE Vx, Vy: skip if V[X] = V[Y] (R146). -/
def execSeReg (x y : Reg) (s : State) : Host.Outcome State Fault Refusal := skipIf (s.getV x == s.getV y) s

/-- SNE Vx, Vy: skip if V[X] != V[Y] (R147). -/
def execSneReg (x y : Reg) (s : State) : Host.Outcome State Fault Refusal := skipIf (s.getV x != s.getV y) s

/-- JP V0, NNN: `PC <- (NNN + r) & 0xFFF` with r of V0, or of Vx when JUMP_OFFSET_USES_VX (R148). -/
def execJpV0 (nnn : Nat) (s : State) : Host.Outcome State Fault Refusal := jumpTo (nnn + (s.jumpOffset nnn).toNat) s

end Sys2Proof.Machine
end

