-- ==== Sys2Proof/Machine/Display.lean ====
section
/-! DEFINITION. DXYN and the collision detector (44_display.md). CLS stands in ControlFlow.lean, as in the spec. -/

namespace Sys2Proof.Machine

open Sys2Proof.Config

/-- The framebuffer and the collision bit as the drawing loop carries them. -/
abbrev Canvas := Framebuffer × Bool

/-- One sprite bit `c` of byte `b` at row `y`: "if b[7 - c] = 1 and x0 + c < 64 and y0 + r < 32" toggle the pixel, and
"if was = 1: col <- 1" (R210, R212 to R214). -/
def drawBit (b : Byte) (x0 y : Nat) (canvas : Canvas) (c : Nat) : Canvas :=
  if b.getLsbD (7 - c) ∧ x0 + c < fbWidth ∧ y < fbHeight then
    (Framebuffer.toggle canvas.1 (x0 + c) y, canvas.2 || Framebuffer.pixel canvas.1 (x0 + c) y)
  else canvas

/-- One sprite row: "for c in 0..7" (R210). -/
def drawRow (b : Byte) (x0 y : Nat) (canvas : Canvas) : Canvas := (List.range 8).foldl (drawBit b x0 y) canvas

/-- The sprite of `n` rows whose row r is the byte `sprite r`, at origin (x0, y0): "for r in 0..N-1" (R210). -/
def drawSprite (sprite : Nat → Byte) (x0 y0 n : Nat) (fb : Framebuffer) : Canvas :=
  (List.range n).foldl (fun canvas r => drawRow (sprite r) x0 (y0 + r) canvas) (fb, false)

/-- The column of the origin: `V[X] mod 64` (R211). -/
def State.originX (s : State) (x : Reg) : Nat := (s.getV x).toNat % fbWidth

/-- The row of the origin: `V[Y] mod 32` (R211). -/
def State.originY (s : State) (y : Reg) : Nat := (s.getV y).toNat % fbHeight

/-- What DXYN draws: the bytes EA(0)..EA(N−1), over the framebuffer (R210, R216). -/
def State.drawn (s : State) (x y : Reg) (n : Nat) : Canvas :=
  drawSprite (fun r => s.memRead (s.ea r)) (s.originX x) (s.originY y) n s.fb

/-- DRW Vx, Vy, N: draw, then `V[F] <- col` (R210). -/
def execDrw (x y : Reg) (n : Nat) (s : State) : Host.Outcome State Fault Refusal :=
  advance ((s.setFb (s.drawn x y n).1).setFlag (s.drawn x y n).2)

end Sys2Proof.Machine
end

