-- ==== Sys2Proof/Machine/MemoryIndex.lean ====
section
/-! DEFINITION. The memory and index-register instructions (43_memory_index.md). -/

namespace Sys2Proof.Machine

/-- LD I, NNN: `I <- NNN` (R190). -/
def execLdI (nnn : Nat) (s : State) : Host.Outcome State Fault Refusal := advance (s.setI nnn)

/-- ADD I, Vx: `I <- (I + V[X]) & 0xFFF`, no flag (R191). -/
def execAddI (x : Reg) (s : State) : Host.Outcome State Fault Refusal := advance (s.setI (s.i.toNat + (s.getV x).toNat))

/-- LD F, Vx: `I <- 0x050 + 5 * (V[X] & 0x0F)` (R192). -/
def execLdF (x : Reg) (s : State) : Host.Outcome State Fault Refusal := advance (s.setI (glyphAddress (s.getV x)))

/-- The three writes of FX33: hundreds at EA(0), tens at EA(1), ones at EA(2) (R193). -/
def State.storeBcd (s : State) (v : Byte) : State :=
  ((s.memWrite (s.ea 0) (hundreds v)).memWrite (s.ea 1) (tens v)).memWrite (s.ea 2) (ones v)

/-- LD B, Vx: the three decimal digits of V[X] (R193). -/
def execLdB (x : Reg) (s : State) : Host.Outcome State Fault Refusal := advance (s.storeBcd (s.getV x))

/-- `for k in 0..X: MemWrite(EA(k), 1, V[k])` (R194). -/
def State.storeRegs (s : State) (x : Reg) : State :=
  (regsUpTo x).foldl (fun t k => t.memWrite (s.ea k.val) (s.getV k)) s

/-- `for k in 0..X: V[k] <- MemRead(EA(k), 1)` (R195). -/
def State.loadRegs (s : State) (x : Reg) : State :=
  (regsUpTo x).foldl (fun t k => t.setV k (s.memRead (s.ea k.val))) s

/-- LD [I], Vx: store V0..Vx at I (R194). -/
def execLdMemVx (x : Reg) (s : State) : Host.Outcome State Fault Refusal := advance ((s.storeRegs x).stepIndex x)

/-- LD Vx, [I]: load V0..Vx from I (R195). -/
def execLdVxMem (x : Reg) (s : State) : Host.Outcome State Fault Refusal := advance ((s.loadRegs x).stepIndex x)

end Sys2Proof.Machine
end

