-- ==== Sys2Proof/Machine/TimingInput.lean ====
section
/-! DEFINITION. The timer and key-input instructions (45_timing_input.md). -/

namespace Sys2Proof.Machine

/-- SKP Vx: skip if Key(V[X] & 0x0F) = 1 (R231). -/
def execSkp (x : Reg) (s : State) : Host.Outcome State Fault Refusal := skipIf (s.key (s.selectedKey x)) s

/-- SKNP Vx: skip if Key(V[X] & 0x0F) = 0 (R232). -/
def execSknp (x : Reg) (s : State) : Host.Outcome State Fault Refusal := skipIf (!s.key (s.selectedKey x)) s

/-- LD Vx, K: the lowest pressed key into V[X], or NO_PROGRESS when KEYS = 0 (R233). -/
def execLdVxK (x : Reg) (s : State) : Host.Outcome State Fault Refusal :=
  .next (match s.lowestKey? with
    | some k => (s.setV x (BitVec.ofNat 8 k)).advanced
    | none => s.stalled)

/-- LD Vx, DT: `V[X] <- DT` (R234). -/
def execLdVxDt (x : Reg) (s : State) : Host.Outcome State Fault Refusal := advance (s.setV x s.dt)

/-- LD DT, Vx: `DT <- V[X]` (R235). -/
def execLdDt (x : Reg) (s : State) : Host.Outcome State Fault Refusal := advance (s.setDt (s.getV x))

/-- LD ST, Vx: `ST <- V[X]` (R236). -/
def execLdSt (x : Reg) (s : State) : Host.Outcome State Fault Refusal := advance (s.setSt (s.getV x))

end Sys2Proof.Machine
end

