-- ==== Sys2Proof/Machine/Cycle.lean ====
section
/-! DEFINITION. The instruction cycle and the four host commands (40_instruction_cycle.md R110 to R126, 60_exceptions.md
R260, R263, 70_reset_and_hazards.md R291, R292). -/

namespace Sys2Proof.Machine

open Sys2Proof.Config

/-! ## EXEC -/

/-- The key sample and the random draw of an EXEC, taken before its instruction executes (R230, R177). -/
def State.sample (s : State) (keys : BitVec 16) (rnd : Byte) : State :=
  s.setPorts { s.ports with keys := keys, rnd := rnd }

/-- "An EXEC accepted in RUN sets CTRL.STARTED <- 1, whatever its result" (R115). -/
def State.markStarted (s : State) : State := s.setCtrl { s.ctrl with started := true }

/-- Whether the second byte of the instruction at PC lies outside memory: "`pc + 1 > 0xFFF`" (R113). -/
def State.pcOutOfBounds (s : State) : Bool := 0xFFF < s.pc.toNat + 1

/-- `word = {MemRead(pc, 1), MemRead(pc + 1, 1)}` (R113). -/
def State.fetchWord (s : State) : Word := wordOfBytes (s.memRead s.pc.toNat) (s.memRead (s.pc.toNat + 1))

/-- An INVALID word: INVALID_OPCODE under FATAL, `PC <- npc` alone under IGNORE (R118). -/
def invalidWord (word : Word) (s : State) : Host.Outcome State Fault Refusal :=
  match s.cfg.invalidOpcodePolicy with
  | .fatal => raiseFault .invalidOpcode (some word) s
  | .ignore => advance s

/-- FETCH, DECODE, EXECUTE and COMMIT of one EXEC in RUN (R112 to R119, R126). -/
def cycle (s : State) : Host.Outcome State Fault Refusal :=
  if s.pcOutOfBounds then raiseFault .pcOutOfBounds none s
  else
    match decode s.fetchWord with
    | .instr i => exec i s
    | .invalid _ => invalidWord s.fetchWord s

/-- EXEC. In HALTED it "changes no state (not even CTRL) and returns FAULT(CTRL.FAULT_CODE) again" (R124). -/
def execCommand (keys : BitVec 16) (rnd : Byte) (s : State) : Host.Outcome State Fault Refusal :=
  if s.ctrl.halted then .next (s.setResult (.fault s.ctrl.faultCode))
  else cycle (s.sample keys rnd).markStarted

/-! ## TICK -/

/-- "if DT > 0: DT <- DT - 1", on either timer (R260). -/
def countDown (t : Byte) : Byte := if 0 < t.toNat then BitVec.ofNat 8 (t.toNat - 1) else t

/-- TICK: both timers count down and stop at 0; "TICK while HALTED changes nothing" (R260, R263). -/
def tickCommand (s : State) : State :=
  if s.ctrl.halted then s.setResult .none
  else ((s.setDt (countDown s.dt)).setSt (countDown s.st)).setResult .none

/-! ## LOAD -/

/-- Whether LOAD is REFUSED: "If CTRL.HALTED = 1, or CTRL.STARTED = 1, or CTRL.LOADED = 1" (R292). -/
def State.loadRefused (s : State) : Bool := s.ctrl.halted || s.ctrl.started || s.ctrl.loaded

/-- An accepted image: "`M[0x200 + k] <- bytes[k]` for k in 0..L−1, `CTRL.LOADED <- 1`" (R292). -/
def State.loadImage (s : State) (bytes : List Byte) : State :=
  (s.setMem (Memory.storeBytes s.cfg.font s.mem programBase bytes)).setCtrl { s.ctrl with loaded := true }

/-- LOAD (R292). -/
def loadCommand (bytes : List Byte) (s : State) : State :=
  if s.loadRefused then s.setResult .loadRefused
  else if maxProgramBytes < bytes.length then s.setResult .programTooLarge
  else (s.loadImage bytes).setResult .loadOk

/-! ## Which command comes next -/

/-- One command, "executed as one atomic transaction that completes before the next command is accepted" (R110). -/
def runCommand (c : Command) (s : State) : Host.Outcome State Fault Refusal :=
  match c with
  | .reset => .next (resetCommand s)
  | .load bytes => .next (loadCommand bytes s)
  | .exec keys rnd => execCommand keys rnd s
  | .tick => .next (tickCommand s)

/-- The command the host issues next: the script's first, and EXEC with free inputs when the script is empty.
DESIGN CHOICE, log 1 and log 2. -/
def State.nextCommand (s : State) : Command :=
  match s.ports.script with
  | [] => .exec (freeKeys s.ports.draws) (freeRnd s.ports.draws)
  | c :: _ => c

/-- The state with that command taken off the host's script, or the free inputs counted. -/
def State.issued (s : State) : State :=
  match s.ports.script with
  | [] => s.setPorts { s.ports with draws := s.ports.draws + 1 }
  | _ :: rest => s.setPorts { s.ports with script := rest }

/-- One command of the host, chosen and run: the step of the machine. -/
def runNext (s : State) : Host.Outcome State Fault Refusal := runCommand s.nextCommand s.issued

/-! ## Placing an instruction for the next step -/

/-- Whether a command is an EXEC. -/
def Command.isExec : Command → Bool
  | .exec _ _ => true
  | .reset => false
  | .load _ => false
  | .tick => false

/-- The state whose next command is an EXEC that fetches: commands before the script's first EXEC are taken off, a
halted core is released, and a PC with no second byte goes to the entry point. Log 11. -/
def State.readyToFetch (s : State) : State :=
  let s := s.setPorts { s.ports with script := s.ports.script.dropWhile (fun c => !c.isExec) }
  let s := if s.ctrl.halted then
    s.setCtrl { Ctrl.reset with loaded := s.ctrl.loaded, started := s.ctrl.started } else s
  if s.pcOutOfBounds then s.setPc programBase else s

/-- A word stored at PC, big-endian (R57), as LOAD stores bytes. -/
def State.placeWord (s : State) (word : Word) : State :=
  s.setMem (Memory.storeBytes s.cfg.font s.mem s.pc.toNat [highByte word, lowByte word])

end Sys2Proof.Machine
end

