-- ==== Sys2Proof/Machine/Step.lean ====
section
/-! DEFINITION. One step of the machine: one command of the host (40_instruction_cycle.md R110). -/

namespace Sys2Proof.Machine

/-- One step: the host's next command, run to completion. -/
def step (s : State) : Host.Outcome State Fault Refusal := runNext s

/-- The state with the instruction of a table word where the next step fetches: it stands for the load of a program
from outside the machine. Log 11. -/
def State.withFetchWord (s : State) (nbits w : Nat) : State :=
  s.readyToFetch.placeWord (BitVec.ofNat 16 (w % 2 ^ nbits))

end Sys2Proof.Machine
end

