-- ==== Sys2Proof/Laws/Decode.lean ====
section
/-! SUPPORT. The masks of the opcode table as division and remainder, the fields of an encoded word, and the byte halves
of a word: what proofs about decoding need of bits. -/

namespace Sys2Proof

/-- Masking the class nibble. -/
theorem and_classMask (n : Nat) : n &&& 0xF000 = n / 4096 % 16 * 4096 := by
  apply Nat.eq_of_testBit_eq
  intro i
  have h1 : (0xF000 : Nat) = (2 ^ 4 - 1) * 2 ^ 12 := by decide
  have h2 : n / 4096 % 16 * 4096 = n / 2 ^ 12 % 2 ^ 4 * 2 ^ 12 := by norm_num
  rw [h2, h1, Nat.testBit_and, Nat.testBit_mul_two_pow, Nat.testBit_mul_two_pow, Nat.testBit_two_pow_sub_one,
    Nat.testBit_mod_two_pow, Nat.testBit_div_two_pow]
  by_cases hi : 12 ≤ i
  · simp [hi, Nat.sub_add_cancel hi, Bool.and_comm]
  · simp [hi]

/-- Masking the class nibble and the low nibble. -/
theorem and_nibbleMask (n : Nat) : n &&& 0xF00F = n / 4096 % 16 * 4096 + n % 16 := by
  have h : (0xF00F : Nat) = 0xF000 ||| (2 ^ 4 - 1) := by decide
  rw [h, Nat.and_or_distrib_left, and_classMask, Nat.and_two_pow_sub_one_eq_mod]
  have hm : n % 2 ^ 4 < 2 ^ 12 := lt_of_lt_of_le (Nat.mod_lt _ (by norm_num)) (by norm_num)
  rw [show n / 4096 % 16 * 4096 = 2 ^ 12 * (n / 4096 % 16) by ring, ← Nat.two_pow_add_eq_or_of_lt hm]
  norm_num

/-- Masking the class nibble and the low byte. -/
theorem and_byteMask (n : Nat) : n &&& 0xF0FF = n / 4096 % 16 * 4096 + n % 256 := by
  have h : (0xF0FF : Nat) = 0xF000 ||| (2 ^ 8 - 1) := by decide
  rw [h, Nat.and_or_distrib_left, and_classMask, Nat.and_two_pow_sub_one_eq_mod]
  have hm : n % 2 ^ 8 < 2 ^ 12 := lt_of_lt_of_le (Nat.mod_lt _ (by norm_num)) (by norm_num)
  rw [show n / 4096 % 16 * 4096 = 2 ^ 12 * (n / 4096 % 16) by ring, ← Nat.two_pow_add_eq_or_of_lt hm]
  norm_num

/-- Masking a whole word. -/
theorem and_wordMask (n : Nat) : n &&& 0xFFFF = n % 65536 := Nat.and_two_pow_sub_one_eq_mod n 16

/-- The value of an instruction's word. -/
theorem encode_toNat (i : Instr) : (encode i).toNat = encodeNat i % 65536 := BitVec.toNat_ofNat _ _

/-- The bytes of a word make the word again (R57). -/
theorem wordOfBytes_halves (w : Word) : wordOfBytes (highByte w) (lowByte w) = w := by
  apply BitVec.eq_of_toNat_eq
  simp only [wordOfBytes, highByte, lowByte, BitVec.toNat_ofNat]
  have := w.isLt
  omega

/-- The fields as division and remainder. -/
theorem field_values (w : Nat) :
    fieldClass w = w / 4096 % 16 ∧ (fieldX w).val = w / 256 % 16 ∧ (fieldY w).val = w / 16 % 16 ∧
    fieldN w = w % 16 ∧ fieldNN w = w % 256 ∧ fieldNNN w = w % 4096 ∧ (immNN w).toNat = w % 256 := by
  simp only [fieldClass, fieldX, fieldY, fieldN, fieldNN, fieldNNN, immNN, bitField, Fin.ofNat,
    BitVec.toNat_ofNat]
  norm_num

/-- A word from its four nibbles, with the wider fields in terms of them. -/
theorem word_digits (w : Nat) :
    w = w / 4096 * 4096 + w / 256 % 16 * 256 + w / 16 % 16 * 16 + w % 16 ∧
    w % 256 = w / 16 % 16 * 16 + w % 16 ∧ w % 4096 = w / 256 % 16 * 256 + w / 16 % 16 * 16 + w % 16 := by
  have h1 : w / 16 / 16 = w / 256 := Nat.div_div_eq_div_mul w 16 16
  have h2 : w / 256 / 16 = w / 4096 := Nat.div_div_eq_div_mul w 256 16
  omega

/-- The fields of a word put together from nibbles. -/
theorem fields_of_digits {c x y n : Nat} (hc : c < 16) (hx : x < 16) (hy : y < 16) (hn : n < 16) :
    fieldClass (c * 4096 + x * 256 + y * 16 + n) = c ∧ fieldX (c * 4096 + x * 256 + y * 16 + n) = ⟨x, hx⟩ ∧
    fieldY (c * 4096 + x * 256 + y * 16 + n) = ⟨y, hy⟩ ∧ fieldN (c * 4096 + x * 256 + y * 16 + n) = n ∧
    fieldNN (c * 4096 + x * 256 + y * 16 + n) = y * 16 + n ∧
    fieldNNN (c * 4096 + x * 256 + y * 16 + n) = x * 256 + y * 16 + n := by
  obtain ⟨h1, h2, h3, h4, h5, h6, -⟩ := field_values (c * 4096 + x * 256 + y * 16 + n)
  refine ⟨by omega, Fin.ext ?_, Fin.ext ?_, by omega, by omega, by omega⟩
  · rw [h2]; show _ = x; omega
  · rw [h3]; show _ = y; omega

end Sys2Proof
end

