-- ==== Sys2Proof/Laws/PerInstr.lean ====
section
/-! SUPPORT. The family EncodingRow: the word a well-formed instruction encodes to matches its own row of the opcode
table, `(word & mask) = match` (30_encoding.md R87). One lemma per constructor. -/

namespace Sys2Proof.Laws.EncodingRow

/-- The encoded word of a well-formed instruction matches its row. -/
def Statement (i : Instr) : Prop := i.wellFormed = true → (encode i).toNat &&& i.row.mask = i.row.mtch

theorem cls : Statement .cls := fun _ => by decide

theorem ret : Statement .ret := fun _ => by decide

theorem jp (nnn : Nat) : Statement (.jp nnn) := by
  intro h
  have h : nnn < 4096 := of_decide_eq_true h
  rw [encode_toNat]
  simp only [Instr.row, encodeNat, and_classMask]
  omega

theorem call (nnn : Nat) : Statement (.call nnn) := by
  intro h
  have h : nnn < 4096 := of_decide_eq_true h
  rw [encode_toNat]
  simp only [Instr.row, encodeNat, and_classMask]
  omega

theorem seImm (x : Reg) (nn : Byte) : Statement (.seImm x nn) := by
  intro _
  have hx := x.isLt
  have hn := nn.isLt
  rw [encode_toNat]
  simp only [Instr.row, encodeNat, encodeXNN, and_classMask]
  omega

theorem sneImm (x : Reg) (nn : Byte) : Statement (.sneImm x nn) := by
  intro _
  have hx := x.isLt
  have hn := nn.isLt
  rw [encode_toNat]
  simp only [Instr.row, encodeNat, encodeXNN, and_classMask]
  omega

theorem seReg (x : Reg) (y : Reg) : Statement (.seReg x y) := by
  intro _
  have hx := x.isLt
  have hy := y.isLt
  rw [encode_toNat]
  simp only [Instr.row, encodeNat, encodeXYN, and_nibbleMask]
  omega

theorem ldImm (x : Reg) (nn : Byte) : Statement (.ldImm x nn) := by
  intro _
  have hx := x.isLt
  have hn := nn.isLt
  rw [encode_toNat]
  simp only [Instr.row, encodeNat, encodeXNN, and_classMask]
  omega

theorem addImm (x : Reg) (nn : Byte) : Statement (.addImm x nn) := by
  intro _
  have hx := x.isLt
  have hn := nn.isLt
  rw [encode_toNat]
  simp only [Instr.row, encodeNat, encodeXNN, and_classMask]
  omega

theorem ldReg (x : Reg) (y : Reg) : Statement (.ldReg x y) := by
  intro _
  have hx := x.isLt
  have hy := y.isLt
  rw [encode_toNat]
  simp only [Instr.row, encodeNat, encodeXYN, and_nibbleMask]
  omega

theorem orReg (x : Reg) (y : Reg) : Statement (.orReg x y) := by
  intro _
  have hx := x.isLt
  have hy := y.isLt
  rw [encode_toNat]
  simp only [Instr.row, encodeNat, encodeXYN, and_nibbleMask]
  omega

theorem andReg (x : Reg) (y : Reg) : Statement (.andReg x y) := by
  intro _
  have hx := x.isLt
  have hy := y.isLt
  rw [encode_toNat]
  simp only [Instr.row, encodeNat, encodeXYN, and_nibbleMask]
  omega

theorem xorReg (x : Reg) (y : Reg) : Statement (.xorReg x y) := by
  intro _
  have hx := x.isLt
  have hy := y.isLt
  rw [encode_toNat]
  simp only [Instr.row, encodeNat, encodeXYN, and_nibbleMask]
  omega

theorem addReg (x : Reg) (y : Reg) : Statement (.addReg x y) := by
  intro _
  have hx := x.isLt
  have hy := y.isLt
  rw [encode_toNat]
  simp only [Instr.row, encodeNat, encodeXYN, and_nibbleMask]
  omega

theorem sub (x : Reg) (y : Reg) : Statement (.sub x y) := by
  intro _
  have hx := x.isLt
  have hy := y.isLt
  rw [encode_toNat]
  simp only [Instr.row, encodeNat, encodeXYN, and_nibbleMask]
  omega

theorem shr (x : Reg) (y : Reg) : Statement (.shr x y) := by
  intro _
  have hx := x.isLt
  have hy := y.isLt
  rw [encode_toNat]
  simp only [Instr.row, encodeNat, encodeXYN, and_nibbleMask]
  omega

theorem subn (x : Reg) (y : Reg) : Statement (.subn x y) := by
  intro _
  have hx := x.isLt
  have hy := y.isLt
  rw [encode_toNat]
  simp only [Instr.row, encodeNat, encodeXYN, and_nibbleMask]
  omega

theorem shl (x : Reg) (y : Reg) : Statement (.shl x y) := by
  intro _
  have hx := x.isLt
  have hy := y.isLt
  rw [encode_toNat]
  simp only [Instr.row, encodeNat, encodeXYN, and_nibbleMask]
  omega

theorem sneReg (x : Reg) (y : Reg) : Statement (.sneReg x y) := by
  intro _
  have hx := x.isLt
  have hy := y.isLt
  rw [encode_toNat]
  simp only [Instr.row, encodeNat, encodeXYN, and_nibbleMask]
  omega

theorem ldI (nnn : Nat) : Statement (.ldI nnn) := by
  intro h
  have h : nnn < 4096 := of_decide_eq_true h
  rw [encode_toNat]
  simp only [Instr.row, encodeNat, and_classMask]
  omega

theorem jpV0 (nnn : Nat) : Statement (.jpV0 nnn) := by
  intro h
  have h : nnn < 4096 := of_decide_eq_true h
  rw [encode_toNat]
  simp only [Instr.row, encodeNat, and_classMask]
  omega

theorem rnd (x : Reg) (nn : Byte) : Statement (.rnd x nn) := by
  intro _
  have hx := x.isLt
  have hn := nn.isLt
  rw [encode_toNat]
  simp only [Instr.row, encodeNat, encodeXNN, and_classMask]
  omega

theorem drw (x : Reg) (y : Reg) (n : Nat) : Statement (.drw x y n) := by
  intro h
  have h : n < 16 := of_decide_eq_true h
  have hx := x.isLt
  have hy := y.isLt
  rw [encode_toNat]
  simp only [Instr.row, encodeNat, encodeXYN, and_classMask]
  omega

theorem skp (x : Reg) : Statement (.skp x) := by
  intro _
  have hx := x.isLt
  rw [encode_toNat]
  simp only [Instr.row, encodeNat, encodeX, and_byteMask]
  omega

theorem sknp (x : Reg) : Statement (.sknp x) := by
  intro _
  have hx := x.isLt
  rw [encode_toNat]
  simp only [Instr.row, encodeNat, encodeX, and_byteMask]
  omega

theorem ldVxDt (x : Reg) : Statement (.ldVxDt x) := by
  intro _
  have hx := x.isLt
  rw [encode_toNat]
  simp only [Instr.row, encodeNat, encodeX, and_byteMask]
  omega

theorem ldVxK (x : Reg) : Statement (.ldVxK x) := by
  intro _
  have hx := x.isLt
  rw [encode_toNat]
  simp only [Instr.row, encodeNat, encodeX, and_byteMask]
  omega

theorem ldDt (x : Reg) : Statement (.ldDt x) := by
  intro _
  have hx := x.isLt
  rw [encode_toNat]
  simp only [Instr.row, encodeNat, encodeX, and_byteMask]
  omega

theorem ldSt (x : Reg) : Statement (.ldSt x) := by
  intro _
  have hx := x.isLt
  rw [encode_toNat]
  simp only [Instr.row, encodeNat, encodeX, and_byteMask]
  omega

theorem addI (x : Reg) : Statement (.addI x) := by
  intro _
  have hx := x.isLt
  rw [encode_toNat]
  simp only [Instr.row, encodeNat, encodeX, and_byteMask]
  omega

theorem ldF (x : Reg) : Statement (.ldF x) := by
  intro _
  have hx := x.isLt
  rw [encode_toNat]
  simp only [Instr.row, encodeNat, encodeX, and_byteMask]
  omega

theorem ldB (x : Reg) : Statement (.ldB x) := by
  intro _
  have hx := x.isLt
  rw [encode_toNat]
  simp only [Instr.row, encodeNat, encodeX, and_byteMask]
  omega

theorem ldMemVx (x : Reg) : Statement (.ldMemVx x) := by
  intro _
  have hx := x.isLt
  rw [encode_toNat]
  simp only [Instr.row, encodeNat, encodeX, and_byteMask]
  omega

theorem ldVxMem (x : Reg) : Statement (.ldVxMem x) := by
  intro _
  have hx := x.isLt
  rw [encode_toNat]
  simp only [Instr.row, encodeNat, encodeX, and_byteMask]
  omega

end Sys2Proof.Laws.EncodingRow
end

