-- ==== Sys2Proof/Safety.lean ====
section
/-! DEFINITION. What the spec's prose says of every state between commands, in the terms the claims use. -/

namespace Sys2Proof.Machine

open Sys2Proof.Config

/-- The ranges of the registers: PC and I "always in 0x000..0xFFF" (R24, R25), stack entries "holding a 12-bit return
address" (R26). SP ≤ 16 holds by its type. -/
structure State.RegistersInRange (s : State) : Prop where
  pc : s.pc.toNat < 4096
  i : s.i.toNat < 4096
  stack : ∀ k : Fin 16, s.stack[k].toNat < 4096

/-- The font region holds FONT while it is protected: "never overwritten by program execution" (R53). -/
def State.FontIntact (s : State) : Prop :=
  s.cfg.fontRegionWritable = false →
    ∀ k : Fin 80, s.memRead (fontBase + k.val) = s.cfg.font[k]

/-- CTRL as the table of R29 allows it and as fault entry leaves it (R256, R257). -/
structure State.CtrlLegal (s : State) : Prop where
  /-- FAULT_CODE is nonzero exactly when HALTED -/
  code : s.ctrl.halted = true ↔ s.ctrl.faultCode ≠ .none
  /-- a word was fetched for "every fault except PC_OUT_OF_BOUNDS" -/
  wordValid : s.ctrl.faultWordValid = true ↔ s.ctrl.faultCode ≠ .none ∧ s.ctrl.faultCode ≠ .pcOutOfBounds
  /-- FAULT_WORD is "0 when FAULT_WORD_VALID is 0" -/
  wordZero : s.ctrl.faultWordValid = false → s.ctrl.faultWord = 0
  /-- "PC and CTRL.FAULT_PC both hold the address of the faulting instruction" (R257) -/
  atFault : s.ctrl.halted = true → s.ctrl.faultPc = s.pc
  /-- only an EXEC faults, and it sets STARTED (R115) -/
  started : s.ctrl.halted = true → s.ctrl.started = true

/-- THE INVARIANT of the machine. -/
structure State.Inv (s : State) : Prop where
  registers : s.RegistersInRange
  memory : Memory.wf s.cfg.font s.mem
  font : s.FontIntact
  ctrl : s.CtrlLegal

/-! ## The terms of the claims: what may change, and how an instruction or a command ends -/

/-- The pieces of the state that a claim names. -/
inductive Component where
  /-- one general register -/
  | v (r : Reg)
  | i
  | pc
  /-- one entry of STACK -/
  | slot (k : Fin 16)
  | sp
  | dt
  | st
  /-- one byte of memory, as MemRead reads it -/
  | byte (a : Nat)
  /-- the whole framebuffer, pixel by pixel -/
  | fb
  | ctrl
  /-- the parameters -/
  | cfg
  /-- KEYS and RND of the EXEC under way -/
  | inputs
  /-- the host's script and the count of free inputs -/
  | schedule
  /-- the result of the last command -/
  | result
deriving DecidableEq, Repr

/-- A piece of the state is the same in two states. -/
def Same (s t : State) : Component → Prop
  | .v r => t.getV r = s.getV r
  | .i => t.i = s.i
  | .pc => t.pc = s.pc
  | .slot k => t.stack[k] = s.stack[k]
  | .sp => t.sp = s.sp
  | .dt => t.dt = s.dt
  | .st => t.st = s.st
  | .byte a => t.memRead a = s.memRead a
  | .fb => ∀ x y, Framebuffer.pixel t.fb x y = Framebuffer.pixel s.fb x y
  | .ctrl => t.ctrl = s.ctrl
  | .cfg => t.cfg = s.cfg
  | .inputs => t.ports.keys = s.ports.keys ∧ t.ports.rnd = s.ports.rnd
  | .schedule => t.ports.script = s.ports.script ∧ t.ports.draws = s.ports.draws
  | .result => t.ports.result = s.ports.result

/-- THE FRAME: every piece of the state but the named ones is as before. -/
def OnlyChanges (named : List Component) (s t : State) : Prop := ∀ c, c ∉ named → Same s t c

/-- Instruction `i` completes in `s` with result PROGRESS and PC at `target`, changes nothing but PC, the result and the
named pieces, and the state it leaves satisfies `post`. -/
def Completes (i : Instr) (s : State) (target : Nat) (named : List Component) (post : State → Prop) : Prop :=
  ∃ t, exec i s = .next t ∧ t.pc.toNat = target ∧ t.ports.result = .progress ∧
    OnlyChanges (.pc :: .result :: named) s t ∧ post t

/-- The address of the next instruction: "`npc = (pc + 2) & 0xFFF`" (R114). -/
def nextAddress (s : State) : Nat := (s.pc.toNat + 2) % 4096

/-- The address after a taken skip: "`(npc + 2) & 0xFFF`" (R120). -/
def skipAddress (s : State) : Nat := (s.pc.toNat + 4) % 4096

/-- `t` is `s` after `raise Fault(code, PC, word)` (R256): CTRL records it, the result is FAULT(code), and nothing else
changed. -/
def Faulted (s t : State) (code : FaultCode) (word : Option Word) : Prop :=
  t.ctrl.halted = true ∧ t.ctrl.faultCode = code ∧ t.ctrl.faultPc = s.pc ∧ t.ctrl.faultWord = word.getD 0 ∧
    t.ctrl.faultWordValid = word.isSome ∧ t.ctrl.loaded = s.ctrl.loaded ∧ t.ctrl.started = s.ctrl.started ∧
    t.ports.result = .fault code ∧ OnlyChanges [.ctrl, .result] s t

/-- The state an accepted EXEC with these inputs runs its instruction in: the command taken off the script, the inputs
sampled (R230), STARTED set (R115). -/
def accepted (s : State) (keys : BitVec 16) (rnd : Byte) (rest : List Command) : State :=
  { s with
    ctrl := { s.ctrl with started := true }
    ports := { s.ports with keys := keys, rnd := rnd, script := rest } }

/-- A byte of the protected font region: 0x050..0x09F while FONT_REGION_WRITABLE is false (R53). -/
def Protected (s : State) (a : Nat) : Prop := 0x050 ≤ a ∧ a ≤ 0x09F ∧ s.cfg.fontRegionWritable = false

/-- Whether DXYN has a set sprite bit at pixel (u, v): bit 7 − (u − x0) of byte EA(v − y0), for the eight columns and `n`
rows from the origin (R211, R212). Clipping is that (u, v) lies in the grid. -/
def spriteBit (s : State) (x y : Reg) (n u v : Nat) : Prop :=
  let x0 := (s.getV x).toNat % 64
  let y0 := (s.getV y).toNat % 32
  x0 ≤ u ∧ u < x0 + 8 ∧ y0 ≤ v ∧ v < y0 + n ∧
    (s.memRead ((s.i.toNat + (v - y0)) % 4096)).getLsbD (7 - (u - x0)) = true

/-- The general registers an instruction may write, by R31: its destination, and VF where it writes a flag. -/
def writesRegister : Instr → Reg → Bool
  | .cls, _ => false
  | .ret, _ => false
  | .jp _, _ => false
  | .call _, _ => false
  | .seImm _ _, _ => false
  | .sneImm _ _, _ => false
  | .seReg _ _, _ => false
  | .ldImm x _, r => r == x
  | .addImm x _, r => r == x
  | .ldReg x _, r => r == x
  | .orReg x _, r => r == x
  | .andReg x _, r => r == x
  | .xorReg x _, r => r == x
  | .addReg x _, r => r == x || r == 15
  | .sub x _, r => r == x || r == 15
  | .shr x _, r => r == x || r == 15
  | .subn x _, r => r == x || r == 15
  | .shl x _, r => r == x || r == 15
  | .sneReg _ _, _ => false
  | .ldI _, _ => false
  | .jpV0 _, _ => false
  | .rnd x _, r => r == x
  | .drw _ _ _, r => r == 15
  | .skp _, _ => false
  | .sknp _, _ => false
  | .ldVxDt x, r => r == x
  | .ldVxK x, r => r == x
  | .ldDt _, _ => false
  | .ldSt _, _ => false
  | .addI _, _ => false
  | .ldF _, _ => false
  | .ldB _, _ => false
  | .ldMemVx _, _ => false
  | .ldVxMem x, r => r.val ≤ x.val

/-- The pieces of the state an instruction may change in `s`, by the write columns of R31, besides PC, "which every
instruction writes", CTRL, which a fault writes (R256), and the result. -/
def mayChange (i : Instr) (s : State) : Component → Prop
  | .v r => writesRegister i r = true
  | .i => match i with
    | .ldI _ | .addI _ | .ldF _ => True
    | .ldMemVx _ | .ldVxMem _ => s.cfg.loadStoreIncrementsI = true
    | _ => False
  | .pc => True
  | .slot k => match i with
    | .call _ => k.val = s.sp.val
    | _ => False
  | .sp => match i with
    | .call _ | .ret => True
    | _ => False
  | .dt => match i with
    | .ldDt _ => True
    | _ => False
  | .st => match i with
    | .ldSt _ => True
    | _ => False
  | .byte a => match i with
    | .ldB _ => ∃ k < 3, a = s.ea k
    | .ldMemVx x => ∃ k ≤ x.val, a = s.ea k
    | _ => False
  | .fb => match i with
    | .cls | .drw _ _ _ => True
    | _ => False
  | .ctrl => match i with
    | .ret => s.sp.val = 0
    | .call _ => s.sp.val = 16
    | _ => False
  | .cfg => False
  | .inputs => False
  | .schedule => False
  | .result => True

/-- The fault that one EXEC in RUN meets, by phase (R258): PC_OUT_OF_BOUNDS at fetch, then INVALID_OPCODE at decode, then
the one fault the instruction can raise. -/
def faultOf (s : State) : Option (FaultCode × Option Word) :=
  if s.pc.toNat + 1 > 0xFFF then some (.pcOutOfBounds, none)
  else
    let word := wordOfBytes (s.memRead s.pc.toNat) (s.memRead (s.pc.toNat + 1))
    match decode word with
    | .invalid _ => if s.cfg.invalidOpcodePolicy = .fatal then some (.invalidOpcode, some word) else none
    | .instr i =>
      if i = .ret ∧ s.sp.val = 0 then some (.stackUnderflow, some word)
      else if word.toNat / 4096 = 2 ∧ s.sp.val = 16 then some (.stackOverflow, some word)
      else none

/-- A safe run is one that has met no fatal fault: the core is in RUN (R112). -/
def State.Running (s : State) : Prop := s.ctrl.halted = false

end Sys2Proof.Machine
end

