-- ==== Sys2Proof/Certificates/Slice0/Obligations.lean ====
section
/-! DEFINITION. The statements for the provers, each from the numbered rules of spec/ that its docstring names. The terms
`Completes`, `OnlyChanges`, `Faulted`, `accepted`, `spriteBit`, `mayChange`, `faultOf` stand in Sys2Proof/Safety.lean. -/

open Sys2Proof Sys2Proof.Machine Sys2Proof.Config

/-! ## Encoding and decoding -/

/-- Decode and encode agree: every well-formed instruction, with every operand, decodes from its own word (R82,
R85). -/
def Obligations.DecodeOfEncodeIsTheInstruction : Prop :=
  ∀ i : Instr, i.wellFormed = true → decode (encode i) = .instr i

/-- Strict decoding, the other direction: a word that decodes gives a well-formed instruction and is exactly that
instruction's word, so no bit of a word is dropped (R88, the spec's decision D12). -/
def Obligations.DecodedWordIsTheInstructionsWord : Prop :=
  ∀ (w : Word) (i : Instr), decode w = .instr i → i.wellFormed = true ∧ encode i = w

/-- R87 (the spec's decision D12): a word decodes to an instruction exactly when it matches that instruction's row
of the opcode table, and is INVALID otherwise. -/
def Obligations.DecodeMatchesTheOpcodeTable : Prop :=
  ∀ w : Word,
    (∀ row ∈ opcodeTable, w.toNat &&& row.mask = row.mtch → ∃ i, decode w = .instr i ∧ i.row = row) ∧
    (∀ i, decode w = .instr i → i.row ∈ opcodeTable ∧ w.toNat &&& i.row.mask = i.row.mtch) ∧
    ((∀ row ∈ opcodeTable, w.toNat &&& row.mask ≠ row.mtch) → ∃ why, decode w = .invalid why)

/-- The INVALID words class by class, the table of R88 (the spec's decision D12; without its counts). -/
def Obligations.InvalidWordsAreTheListedOnes : Prop :=
  ∀ w : Word, (∃ why, decode w = .invalid why) ↔
    let c := w.toNat / 4096
    let n := w.toNat % 16
    let nn := w.toNat % 256
    (c = 0 ∧ w.toNat ≠ 0x00E0 ∧ w.toNat ≠ 0x00EE) ∨
    (c = 5 ∧ n ≠ 0) ∨
    (c = 8 ∧ (n ∈ [0x8, 0x9, 0xA, 0xB, 0xC, 0xD, 0xF])) ∨
    (c = 9 ∧ n ≠ 0) ∨
    (c = 0xE ∧ nn ∉ [0x9E, 0xA1]) ∨
    (c = 0xF ∧ nn ∉ [0x07, 0x0A, 0x15, 0x18, 0x1E, 0x29, 0x33, 0x55, 0x65])

/-- Words written out from the patterns of R85 (the spec's general knowledge G1 and its decision D13), and words
that are INVALID by the strict decoding of R88 (its decision D12), as the decode table of 95_test_vectors.md section
2.1 has them (log 8). -/
def Obligations.WrittenOutWordsDecode : Prop :=
  decode 0x00E0 = .instr .cls ∧ decode 0x00EE = .instr .ret ∧ decode 0x1FFF = .instr (.jp 0xFFF) ∧
  decode 0x332A = .instr (.seImm 3 0x2A) ∧ decode 0x6005 = .instr (.ldImm 0 5) ∧
  decode 0x8AB4 = .instr (.addReg 0xA 0xB) ∧ decode 0xA2F0 = .instr (.ldI 0x2F0) ∧
  decode 0xD115 = .instr (.drw 1 1 5) ∧ decode 0xE49E = .instr (.skp 4) ∧ decode 0xF029 = .instr (.ldF 0) ∧
  decode 0xFE65 = .instr (.ldVxMem 0xE) ∧ decode 0x0123 = .invalid .class0 ∧ decode 0x5121 = .invalid .class5 ∧
  decode 0x800F = .invalid .class8 ∧ decode 0xE09F = .invalid .classE ∧ decode 0xF075 = .invalid .classF

/-! ## The instruction cycle and the commands -/

/-- A step whose command is EXEC runs the instruction that the two bytes at PC decode to, in the state with that
command taken, its inputs sampled and STARTED set; when the host's script is empty the EXEC has the free inputs (log
1, log 2). -/
def Obligations.StepRunsTheDecodedInstruction : Prop :=
  ∀ (s : State) (i : Instr), s.ctrl.halted = false → s.pc.toNat + 1 ≤ 0xFFF →
    decodeBytes [s.memRead s.pc.toNat, s.memRead (s.pc.toNat + 1)] = (.instr i, []) →
    (∀ keys rnd rest, s.ports.script = .exec keys rnd :: rest → step s = exec i (accepted s keys rnd rest)) ∧
    (s.ports.script = [] →
      step s = exec i (accepted { s with ports := { s.ports with draws := s.ports.draws + 1 } }
        (freeKeys s.ports.draws) (freeRnd s.ports.draws) []))

/-- No step of this machine stops: every command, in every state, has a next state, for every fault is a next
state. -/
def Obligations.EveryStepAnswersANextState : Prop :=
  (∀ (i : Instr) (s : State), ∃ t, exec i s = .next t) ∧ (∀ s : State, ∃ t, step s = .next t)

/-- R113: the fetch from 0xFFF, the one in-range PC whose second byte is outside memory, raises PC_OUT_OF_BOUNDS
with no word; from every other PC in range the word is the big-endian byte pair at PC, and this fault is not
raised. -/
def Obligations.FetchFaultsOnlyAtTheTopAddress : Prop :=
  ∀ (s : State) (keys : BitVec 16) (rnd : Byte) (rest : List Command),
    s.ports.script = .exec keys rnd :: rest → s.ctrl.halted = false → s.pc.toNat < 4096 →
    (s.pc.toNat = 0xFFF →
      ∃ t, step s = .next t ∧ Faulted (accepted s keys rnd rest) t .pcOutOfBounds none) ∧
    (s.pc.toNat ≠ 0xFFF → ∃ t, step s = .next t ∧ t.ports.result ≠ .fault .pcOutOfBounds ∧
      s.fetchWord.toNat = (s.memRead s.pc.toNat).toNat * 256 + (s.memRead (s.pc.toNat + 1)).toNat)

/-- R118 (the spec's decision D11): an INVALID word faults under FATAL, and under IGNORE only advances PC. -/
def Obligations.InvalidWordFollowsThePolicy : Prop :=
  ∀ (s : State) (keys : BitVec 16) (rnd : Byte) (rest : List Command) (why : InvalidWord),
    s.ports.script = .exec keys rnd :: rest → s.ctrl.halted = false → s.pc.toNat + 1 ≤ 0xFFF →
    decode (wordOfBytes (s.memRead s.pc.toNat) (s.memRead (s.pc.toNat + 1))) = .invalid why →
    (s.cfg.invalidOpcodePolicy = .fatal → ∃ t, step s = .next t ∧
      Faulted (accepted s keys rnd rest) t .invalidOpcode
        (some (wordOfBytes (s.memRead s.pc.toNat) (s.memRead (s.pc.toNat + 1))))) ∧
    (s.cfg.invalidOpcodePolicy = .ignore → ∃ t, step s = .next t ∧ t.pc.toNat = nextAddress s ∧
      t.ports.result = .progress ∧ OnlyChanges [.pc, .result] (accepted s keys rnd rest) t)

/-- The faults of EXEC are exactly those of R250, in the phase order that R258 derives from R252 to R255; what a
fault leaves, and that it halts the core, are the spec's decisions D8 and D9, and its codes D10 (log 8, log 10).
With no fault the core stays in RUN, and the result is PROGRESS or NO_PROGRESS. -/
def Obligations.ExecFaultsExactlyInPhaseOrder : Prop :=
  ∀ (s : State) (keys : BitVec 16) (rnd : Byte) (rest : List Command),
    s.ports.script = .exec keys rnd :: rest → s.ctrl.halted = false →
    ∃ t, step s = .next t ∧
      (∀ code word, faultOf s = some (code, word) → Faulted (accepted s keys rnd rest) t code word) ∧
      (faultOf s = none → t.ctrl = (accepted s keys rnd rest).ctrl ∧
        (t.ports.result = .progress ∨ t.ports.result = .noProgress))

/-- R124 (the spec's decision D9): EXEC in HALTED changes no state, not even CTRL, and returns the latched fault
again. -/
def Obligations.HaltedExecChangesNothing : Prop :=
  ∀ (s : State) (keys : BitVec 16) (rnd : Byte) (rest : List Command),
    s.ports.script = .exec keys rnd :: rest → s.ctrl.halted = true →
    ∃ t, step s = .next t ∧ t.ports.result = .fault s.ctrl.faultCode ∧ t.ports.script = rest ∧
      OnlyChanges [.schedule, .result] s t

/-- Only RESET leaves HALTED (R259, the spec's decision D9), and every other command leaves a halted core as it is
(R112). -/
def Obligations.OnlyResetLeavesHalted : Prop :=
  ∀ s t : State, s.ctrl.halted = true → step s = .next t →
    (∀ rest, s.ports.script ≠ .reset :: rest) → OnlyChanges [.schedule, .result] s t

/-- R260, and R263 (the spec's decision D9): TICK decrements both timers by 1, stops at 0, changes nothing else,
returns nothing, and in HALTED does nothing at all. -/
def Obligations.TickCountsBothTimersDown : Prop :=
  ∀ (s : State) (rest : List Command), s.ports.script = .tick :: rest →
    ∃ t, step s = .next t ∧ t.ports.script = rest ∧ t.ports.result = .none ∧
      (s.ctrl.halted = false → t.dt.toNat = s.dt.toNat - 1 ∧ t.st.toNat = s.st.toNat - 1 ∧
        OnlyChanges [.dt, .st, .schedule, .result] s t) ∧
      (s.ctrl.halted = true → OnlyChanges [.schedule, .result] s t)

/-- R292 (when LOAD is refused is the spec's decision D29): LOAD refused, too large, or done, with what each
leaves. -/
def Obligations.LoadFollowsItsThreeCases : Prop :=
  ∀ (s : State) (bytes : List Byte) (rest : List Command), s.ports.script = .load bytes :: rest →
    ∃ t, step s = .next t ∧ t.ports.script = rest ∧
      ((s.ctrl.halted = true ∨ s.ctrl.started = true ∨ s.ctrl.loaded = true) →
        t.ports.result = .loadRefused ∧ OnlyChanges [.schedule, .result] s t) ∧
      (s.ctrl.halted = false → s.ctrl.started = false → s.ctrl.loaded = false →
        (bytes.length > 3584 → t.ports.result = .programTooLarge ∧ OnlyChanges [.schedule, .result] s t) ∧
        (bytes.length ≤ 3584 → t.ports.result = .loadOk ∧ t.ctrl = { s.ctrl with loaded := true } ∧
          (∀ k (h : k < bytes.length), t.memRead (0x200 + k) = bytes[k]) ∧
          OnlyChanges (.ctrl :: .schedule :: .result :: (List.range bytes.length).map fun k => .byte (0x200 + k)) s t))

/-- RESET as a command, "accepted in any state" (R291, R32, the spec's decisions D2, D3, D40); that it keeps the
parameters and the rest of the host's script is the model's choice (log 5). -/
def Obligations.ResetCommandRestoresTheResetState : Prop :=
  ∀ (s : State) (rest : List Command), s.ports.script = .reset :: rest →
    ∃ t, step s = .next t ∧ (∀ r, t.getV r = 0) ∧ t.i = 0 ∧ t.pc = 0x200 ∧ (∀ k : Fin 16, t.stack[k] = 0) ∧
      t.sp = 0 ∧ t.dt = 0 ∧ t.st = 0 ∧ (∀ k : Fin 80, t.memRead (0x050 + k.val) = s.cfg.font[k]) ∧
      (∀ a, a < 0x050 ∨ 0x0A0 ≤ a → t.memRead a = 0) ∧
      (∀ x y, Framebuffer.pixel t.fb x y = false) ∧
      t.ctrl = ⟨false, .none, 0, 0, false, false, false⟩ ∧ t.cfg = s.cfg ∧ t.ports.script = rest

/-- R32 and R290 (the spec's decisions D2, D3, D40): the values of the power-on state, the whole font at its place,
and from R55 its first, its source-given and its last glyph (D27). -/
def Obligations.PowerOnStateHasTheResetValues : Prop :=
  (∀ r, State.reset.getV r = 0) ∧ State.reset.i = 0 ∧ State.reset.pc = 0x200 ∧ State.reset.sp = 0 ∧
  (∀ k : Fin 16, State.reset.stack[k] = 0) ∧ State.reset.dt = 0 ∧ State.reset.st = 0 ∧
  (∀ x y, Framebuffer.pixel State.reset.fb x y = false) ∧
  State.reset.ctrl = ⟨false, .none, 0, 0, false, false, false⟩ ∧
  (∀ a, a < 0x050 ∨ 0x0A0 ≤ a → State.reset.memRead a = 0) ∧
  (∀ k : Fin 80, State.reset.memRead (0x050 + k.val) = State.reset.cfg.font[k]) ∧
  (List.range 5).map (fun k => State.reset.memRead (0x050 + k)) = [0xF0, 0x90, 0x90, 0x90, 0xF0] ∧
  (List.range 5).map (fun k => State.reset.memRead (0x069 + k)) = [0xF0, 0x80, 0xF0, 0x10, 0xF0] ∧
  (List.range 5).map (fun k => State.reset.memRead (0x09B + k)) = [0xF0, 0x80, 0xF0, 0x80, 0x80]

/-- The six parameters of the power-on state are the defaults of R7 (the spec's decisions D7, D11, D15, D17, D21),
FONT among them: the 80 bytes of R55, glyphs 0 to F in order, two to a line (D27; all but glyph 5 the spec's general
knowledge G2). That the parameters stand in the state is the model's choice (log 3). -/
def Obligations.PowerOnParametersAreTheDefaults : Prop :=
  State.reset.cfg.invalidOpcodePolicy = .fatal ∧ State.reset.cfg.loadStoreIncrementsI = false ∧
  State.reset.cfg.shiftUsesVy = false ∧ State.reset.cfg.jumpOffsetUsesVx = false ∧
  State.reset.cfg.fontRegionWritable = false ∧
  State.reset.cfg.font.toList =
    [0xF0, 0x90, 0x90, 0x90, 0xF0, 0x20, 0x60, 0x20, 0x20, 0x70] ++
    [0xF0, 0x10, 0xF0, 0x80, 0xF0, 0xF0, 0x10, 0xF0, 0x10, 0xF0] ++
    [0x90, 0x90, 0xF0, 0x10, 0x10, 0xF0, 0x80, 0xF0, 0x10, 0xF0] ++
    [0xF0, 0x80, 0xF0, 0x90, 0xF0, 0xF0, 0x10, 0x20, 0x40, 0x40] ++
    [0xF0, 0x90, 0xF0, 0x90, 0xF0, 0xF0, 0x90, 0xF0, 0x10, 0xF0] ++
    [0xF0, 0x90, 0xF0, 0x90, 0x90, 0xE0, 0x90, 0xE0, 0x90, 0xE0] ++
    [0xF0, 0x80, 0x80, 0x80, 0xF0, 0xE0, 0x90, 0x90, 0x90, 0xE0] ++
    [0xF0, 0x80, 0xF0, 0x80, 0xF0, 0xF0, 0x80, 0xF0, 0x80, 0x80]

/-- R122: NO_PROGRESS comes from FX0A with no key pressed and from nothing else, and that FX0A changes nothing but
the result. -/
def Obligations.OnlyWaitForKeyMakesNoProgress : Prop :=
  ∀ (i : Instr) (s t : State), exec i s = .next t →
    (t.ports.result = .noProgress ↔ (∃ x, i = .ldVxK x) ∧ s.ports.keys = 0) ∧
    (t.ports.result = .noProgress → OnlyChanges [.result] s t)

/-- R278 (derived there from R142): a jump to itself is a fixed point: every EXEC there returns PROGRESS and leaves
every piece of the core's state but STARTED. -/
def Obligations.JumpToItselfIsAFixedPoint : Prop :=
  ∀ (s : State) (keys : BitVec 16) (rnd : Byte) (rest : List Command),
    s.ports.script = .exec keys rnd :: rest → s.ctrl.halted = false → s.pc.toNat + 1 ≤ 0xFFF →
    decode (wordOfBytes (s.memRead s.pc.toNat) (s.memRead (s.pc.toNat + 1))) = .instr (.jp s.pc.toNat) →
    ∃ t, step s = .next t ∧ t.ports.result = .progress ∧ t.ctrl = { s.ctrl with started := true } ∧
      OnlyChanges [.ctrl, .inputs, .schedule, .result] s t

/-- R275 and R66 (the spec's decisions D33, D30): SOUND_ON is ST ≠ 0, and the display read port shows the pixel in
range and refuses out of range. R29 and R250 (D10): FAULT_CODE reads as 0, 2, 3, 4 or 5 by its name and FAULT(code)
carries the same number, PROGRAM_TOO_LARGE has code 1, and no other result has a code; that FAULT_CODE is held as a
name and that the outputs stand outside the step are the model's readings (log 10, log 15). -/
def Obligations.PassiveOutputsShowTheState : Prop :=
  (∀ s : State, (s.soundOn = true ↔ s.st ≠ 0) ∧
    (∀ (x y : Nat) (hy : y < 32) (hx : x < 64), s.displayRead x y = some (s.fb[y])[x]) ∧
    (∀ x y : Nat, 64 ≤ x ∨ 32 ≤ y → s.displayRead x y = none)) ∧
  FaultCode.none.toBits = 0 ∧ FaultCode.pcOutOfBounds.toBits = 2 ∧ FaultCode.stackUnderflow.toBits = 3 ∧
  FaultCode.stackOverflow.toBits = 4 ∧ FaultCode.invalidOpcode.toBits = 5 ∧
  (∀ c : FaultCode, (CommandResult.fault c).code = some c.toBits) ∧ CommandResult.programTooLarge.code = some 1 ∧
  (∀ r : CommandResult, r ≠ .programTooLarge → (∀ c, r ≠ .fault c) → r.code = none)

/-! ## Invariants and whole-machine rules -/

/-- The invariant is kept by every step from every state that has it: PC and I below 0x1000 (R24, R25, the spec's
decisions D4, D6), stack entries of 12 bits (R26, D31), the font intact while protected (R53, D7), CTRL legal and
faults precise (R29, R256, R257, D8, D9, D29), all by log 8; and memory in the canonical form, which is the model's
own (log 7). -/
def Obligations.EveryStepKeepsTheInvariant : Prop :=
  ∀ s t : State, s.Inv → step s = .next t → t.Inv

/-- The power-on state has the invariant: it rests on the reset values of R32 (the spec's decisions D2, D3, D40, log
8), and the canonical form of memory is the model's own (log 7). -/
def Obligations.PowerOnStateHasTheInvariant : Prop := State.reset.Inv

/-- The write columns of the register-access table R31, which the spec derives from R140 to R237, with what a fault
writes (R256, the spec's decisions D8, D9, log 8), for every instruction in every state: an instruction changes no
piece of the state but those the table lets it, PC, the result, and CTRL where it faults. -/
def Obligations.InstructionsChangeOnlyWhatTheAccessTableAllows : Prop :=
  ∀ (i : Instr) (s t : State), exec i s = .next t → ∀ c, ¬ mayChange i s c → Same s t c

/-- KEYS reaches only the key instructions EX9E, EXA1 and FX0A (R50): every other instruction runs the same whatever
the key vector. -/
def Obligations.KeysReachOnlyKeyInstructions : Prop :=
  ∀ (i : Instr) (s t : State) (keys : BitVec 16),
    (∀ x, i ≠ .skp x) → (∀ x, i ≠ .sknp x) → (∀ x, i ≠ .ldVxK x) → exec i s = .next t →
    exec i { s with ports := { s.ports with keys := keys } } = .next { t with ports := { t.ports with keys := keys } }

/-- RND reaches only CXNN (R8): every other instruction runs the same whatever the random draw. -/
def Obligations.RandomDrawReachesOnlyRnd : Prop :=
  ∀ (i : Instr) (s t : State) (rnd : Byte), (∀ x nn, i ≠ .rnd x nn) → exec i s = .next t →
    exec i { s with ports := { s.ports with rnd := rnd } } = .next { t with ports := { t.ports with rnd := rnd } }

/-- R119 and R256 (the spec's decisions D8, D9, which settle C3; log 8) and R257 (derived there from them): an EXEC
that ends HALTED applied no part of its instruction, and PC and FAULT_PC both hold the faulting address. -/
def Obligations.FaultsArePrecise : Prop :=
  ∀ (s t : State) (keys : BitVec 16) (rnd : Byte) (rest : List Command),
    s.ports.script = .exec keys rnd :: rest → s.ctrl.halted = false → step s = .next t → t.ctrl.halted = true →
    t.ctrl.faultPc = s.pc ∧ t.pc = s.pc ∧ OnlyChanges [.ctrl, .inputs, .schedule, .result] s t

/-! ## Control flow -/

/-- R140: CLS turns every pixel off, changes nothing else, and advances. -/
def Obligations.ClsClearsTheScreen : Prop :=
  Instr.cls.row = ⟨"CLS", 0x00E0, 0xFFFF⟩ ∧
  ∀ s : State, Completes .cls s (nextAddress s) [.fb] fun t => ∀ x y, Framebuffer.pixel t.fb x y = false

/-- R141: RET pops the return address into PC, and faults with STACK_UNDERFLOW on an empty stack. -/
def Obligations.RetPopsOrUnderflows : Prop :=
  Instr.ret.row = ⟨"RET", 0x00EE, 0xFFFF⟩ ∧
  (∀ (s : State) (k : Fin 16), s.sp.val = k.val + 1 →
    Completes .ret s (s.stack[k].toNat % 4096) [.sp] fun t => t.sp.val = k.val) ∧
  (∀ s : State, s.sp.val = 0 → ∃ t, exec .ret s = .next t ∧ Faulted s t .stackUnderflow (some 0x00EE))

/-- R142: JP sets PC to NNN exactly. -/
def Obligations.JpSetsPcToTheAddress : Prop :=
  ∀ (s : State) (nnn : Nat), (Instr.jp nnn).row = ⟨"JP", 0x1000, 0xF000⟩ ∧
    (nnn < 4096 → Completes (.jp nnn) s nnn [] fun _ => True)

/-- R143: CALL pushes npc and jumps, and faults with STACK_OVERFLOW on a full stack. -/
def Obligations.CallPushesOrOverflows : Prop :=
  ∀ (s : State) (nnn : Nat), nnn < 4096 →
    (Instr.call nnn).row = ⟨"CALL", 0x2000, 0xF000⟩ ∧
    (∀ k : Fin 16, s.sp.val = k.val → Completes (.call nnn) s nnn [.sp, .slot k] fun t =>
      t.stack[k].toNat = nextAddress s ∧ t.sp.val = k.val + 1) ∧
    (s.sp.val = 16 → ∃ t, exec (.call nnn) s = .next t ∧
      Faulted s t .stackOverflow (some (BitVec.ofNat 16 (0x2000 + nnn))))

/-- "calling from address A to B then returning resumes execution at A+2" (R143): a CALL with room and then a RET
with the stack as the CALL left it bring PC to the address after the CALL and SP back to where it was. -/
def Obligations.CallThenRetResumesAfterTheCall : Prop :=
  ∀ (s t u w : State) (nnn : Nat), s.sp.val < 16 → exec (.call nnn) s = .next t →
    u.sp = t.sp → u.stack = t.stack → exec .ret u = .next w →
    w.pc.toNat = nextAddress s ∧ w.sp = s.sp ∧ w.ports.result = .progress

/-- R144 and R145: the skips on a register and an immediate. -/
def Obligations.SkipsOnImmediate : Prop :=
  ∀ (s : State) (x : Reg) (nn : Byte),
    (Instr.seImm x nn).row = ⟨"SE_IMM", 0x3000, 0xF000⟩ ∧ (Instr.sneImm x nn).row = ⟨"SNE_IMM", 0x4000, 0xF000⟩ ∧
    Completes (.seImm x nn) s (if s.getV x = nn then skipAddress s else nextAddress s) [] (fun _ => True) ∧
    Completes (.sneImm x nn) s (if s.getV x = nn then nextAddress s else skipAddress s) [] (fun _ => True)

/-- R146 and R147: the skips on two registers, X = Y among them. -/
def Obligations.SkipsOnRegisters : Prop :=
  ∀ (s : State) (x y : Reg),
    (Instr.seReg x y).row = ⟨"SE_REG", 0x5000, 0xF00F⟩ ∧ (Instr.sneReg x y).row = ⟨"SNE_REG", 0x9000, 0xF00F⟩ ∧
    Completes (.seReg x y) s (if s.getV x = s.getV y then skipAddress s else nextAddress s) [] (fun _ => True) ∧
    Completes (.sneReg x y) s (if s.getV x = s.getV y then nextAddress s else skipAddress s) [] (fun _ => True)

/-- R148 (the spec's decisions D4, D17): the jump with offset V0, or with Vx of the address's top nibble when
JUMP_OFFSET_USES_VX. -/
def Obligations.JpV0AddsTheOffset : Prop :=
  ∀ (s : State) (nnn : Nat), nnn < 4096 →
    (Instr.jpV0 nnn).row = ⟨"JP_V0", 0xB000, 0xF000⟩ ∧
    (s.cfg.jumpOffsetUsesVx = false →
      Completes (.jpV0 nnn) s ((nnn + (s.getV 0).toNat) % 4096) [] fun _ => True) ∧
    (∀ x : Reg, s.cfg.jumpOffsetUsesVx = true → nnn / 256 = x.val →
      Completes (.jpV0 nnn) s ((nnn + (s.getV x).toNat) % 4096) [] fun _ => True)

/-! ## Register and immediate instructions -/

/-- R166 and R168: a register set to an immediate and to another register. -/
def Obligations.LoadsIntoARegister : Prop :=
  ∀ (s : State) (x y : Reg) (nn : Byte),
    (Instr.ldImm x nn).row = ⟨"LD_IMM", 0x6000, 0xF000⟩ ∧ (Instr.ldReg x y).row = ⟨"LD_REG", 0x8000, 0xF00F⟩ ∧
    Completes (.ldImm x nn) s (nextAddress s) [.v x] (fun t => t.getV x = nn) ∧
    Completes (.ldReg x y) s (nextAddress s) [.v x] (fun t => t.getV x = s.getV y)

/-- R167: ADD Vx, NN wraps modulo 256 and writes no flag. -/
def Obligations.AddImmediateWrapsWithoutFlag : Prop :=
  ∀ (s : State) (x : Reg) (nn : Byte), (Instr.addImm x nn).row = ⟨"ADD_IMM", 0x7000, 0xF000⟩ ∧
    Completes (.addImm x nn) s (nextAddress s) [.v x] fun t =>
      (t.getV x).toNat = ((s.getV x).toNat + nn.toNat) % 256

/-- R169 to R171 (that VF stays is the spec's decision D16): the bitwise operations, which leave VF unless it is the
destination. -/
def Obligations.LogicOperationsWriteNoFlag : Prop :=
  ∀ (s : State) (x y : Reg),
    (Instr.orReg x y).row = ⟨"OR", 0x8001, 0xF00F⟩ ∧ (Instr.andReg x y).row = ⟨"AND", 0x8002, 0xF00F⟩ ∧
    (Instr.xorReg x y).row = ⟨"XOR", 0x8003, 0xF00F⟩ ∧
    Completes (.orReg x y) s (nextAddress s) [.v x] (fun t =>
      ∀ b, (t.getV x).getLsbD b = ((s.getV x).getLsbD b || (s.getV y).getLsbD b)) ∧
    Completes (.andReg x y) s (nextAddress s) [.v x] (fun t =>
      ∀ b, (t.getV x).getLsbD b = ((s.getV x).getLsbD b && (s.getV y).getLsbD b)) ∧
    Completes (.xorReg x y) s (nextAddress s) [.v x] (fun t =>
      ∀ b, (t.getV x).getLsbD b = ((s.getV x).getLsbD b ^^ (s.getV y).getLsbD b))

/-- R172: the sum in Vx and the carry in VF; the carry alone when X = F. -/
def Obligations.AddRegistersSetsCarry : Prop :=
  ∀ (s : State) (x y : Reg), (Instr.addReg x y).row = ⟨"ADD_REG", 0x8004, 0xF00F⟩ ∧
    Completes (.addReg x y) s (nextAddress s) [.v x, .v 15] fun t =>
      (t.getV 15).toNat = (if (s.getV x).toNat + (s.getV y).toNat ≥ 256 then 1 else 0) ∧
      (x ≠ 15 → (t.getV x).toNat = ((s.getV x).toNat + (s.getV y).toNat) % 256)

/-- R173 and R174: the difference, minuend Vx or Vy, and no-borrow in VF; the flag alone when X = F. -/
def Obligations.SubtractionsSetNoBorrow : Prop :=
  ∀ (s : State) (x y : Reg),
    (Instr.sub x y).row = ⟨"SUB", 0x8005, 0xF00F⟩ ∧ (Instr.subn x y).row = ⟨"SUBN", 0x8007, 0xF00F⟩ ∧
    Completes (.sub x y) s (nextAddress s) [.v x, .v 15] (fun t =>
      (t.getV 15).toNat = (if (s.getV x).toNat ≥ (s.getV y).toNat then 1 else 0) ∧
      (x ≠ 15 → (t.getV x).toNat = ((s.getV x).toNat + 256 - (s.getV y).toNat) % 256)) ∧
    Completes (.subn x y) s (nextAddress s) [.v x, .v 15] (fun t =>
      (t.getV 15).toNat = (if (s.getV y).toNat ≥ (s.getV x).toNat then 1 else 0) ∧
      (x ≠ 15 → (t.getV x).toNat = ((s.getV y).toNat + 256 - (s.getV x).toNat) % 256))

/-- R175 and R176 (the spec's decision D15): the shifts by one of Vx, or of Vy when SHIFT_USES_VY, with the bit
shifted out in VF. -/
def Obligations.ShiftsMoveOneBitIntoVF : Prop :=
  ∀ (s : State) (x y : Reg) (src : Byte), src = (if s.cfg.shiftUsesVy = true then s.getV y else s.getV x) →
    (Instr.shr x y).row = ⟨"SHR", 0x8006, 0xF00F⟩ ∧ (Instr.shl x y).row = ⟨"SHL", 0x800E, 0xF00F⟩ ∧
    Completes (.shr x y) s (nextAddress s) [.v x, .v 15] (fun t =>
      (t.getV 15).toNat = src.toNat % 2 ∧ (x ≠ 15 → (t.getV x).toNat = src.toNat / 2)) ∧
    Completes (.shl x y) s (nextAddress s) [.v x, .v 15] (fun t =>
      (t.getV 15).toNat = src.toNat / 128 ∧ (x ≠ 15 → (t.getV x).toNat = src.toNat * 2 % 256))

/-- R177 (the spec's decision D26): Vx takes the random draw of this EXEC masked by NN, whatever the draw. -/
def Obligations.RndMasksTheDraw : Prop :=
  ∀ (s : State) (x : Reg) (nn : Byte), (Instr.rnd x nn).row = ⟨"RND", 0xC000, 0xF000⟩ ∧
    Completes (.rnd x nn) s (nextAddress s) [.v x] fun t =>
      ∀ b, (t.getV x).getLsbD b = (s.ports.rnd.getLsbD b && nn.getLsbD b)

/-! ## Memory and index -/

/-- R190 to R192 (the spec's decisions D6, D18, D19): the three instructions that set I. -/
def Obligations.IndexInstructionsSetI : Prop :=
  ∀ (s : State) (x : Reg) (nnn : Nat),
    (Instr.ldI nnn).row = ⟨"LD_I", 0xA000, 0xF000⟩ ∧ (Instr.addI x).row = ⟨"ADD_I", 0xF01E, 0xF0FF⟩ ∧
    (Instr.ldF x).row = ⟨"LD_F", 0xF029, 0xF0FF⟩ ∧
    (nnn < 4096 → Completes (.ldI nnn) s (nextAddress s) [.i] fun t => t.i.toNat = nnn) ∧
    Completes (.addI x) s (nextAddress s) [.i] (fun t => t.i.toNat = (s.i.toNat + (s.getV x).toNat) % 4096) ∧
    Completes (.ldF x) s (nextAddress s) [.i] (fun t => t.i.toNat = 0x050 + 5 * ((s.getV x).toNat % 16))

/-- R193 (the spec's decisions D20, D7): FX33 stores the three decimal digits at EA(0), EA(1), EA(2), and discards
those in the protected font region. -/
def Obligations.LdBStoresTheDecimalDigits : Prop :=
  ∀ (s : State) (x : Reg), (Instr.ldB x).row = ⟨"LD_B", 0xF033, 0xF0FF⟩ ∧
    Completes (.ldB x) s (nextAddress s) [.byte (s.ea 0), .byte (s.ea 1), .byte (s.ea 2)] fun t =>
      (∀ k, s.ea k = (s.i.toNat + k) % 4096) ∧
      (¬ Protected s (s.ea 0) → (t.memRead (s.ea 0)).toNat = (s.getV x).toNat / 100) ∧
      (¬ Protected s (s.ea 1) → (t.memRead (s.ea 1)).toNat = (s.getV x).toNat / 10 % 10) ∧
      (¬ Protected s (s.ea 2) → (t.memRead (s.ea 2)).toNat = (s.getV x).toNat % 10) ∧
      (∀ a, Protected s a → t.memRead a = s.memRead a)

/-- R194 (the spec's decisions D21, D7): FX55 stores V0..Vx at EA(0)..EA(X), discards those in the protected font
region, and moves I only under LOAD_STORE_INCREMENTS_I. -/
def Obligations.LdMemVxStoresTheRegisters : Prop :=
  ∀ (s : State) (x : Reg), (Instr.ldMemVx x).row = ⟨"LD_MEM_VX", 0xF055, 0xF0FF⟩ ∧
    Completes (.ldMemVx x) s (nextAddress s)
      (.i :: (List.range (x.val + 1)).map fun k => .byte (s.ea k)) fun t =>
      (∀ k, s.ea k = (s.i.toNat + k) % 4096) ∧
      (∀ k : Reg, k ≤ x → ¬ Protected s (s.ea k.val) → t.memRead (s.ea k.val) = s.getV k) ∧
      (∀ a, Protected s a → t.memRead a = s.memRead a) ∧
      (s.cfg.loadStoreIncrementsI = false → t.i = s.i) ∧
      (s.cfg.loadStoreIncrementsI = true → t.i.toNat = (s.i.toNat + x.val + 1) % 4096)

/-- R195 (the spec's decision D21): FX65 loads V0..Vx from EA(0)..EA(X) and moves I only under
LOAD_STORE_INCREMENTS_I. -/
def Obligations.LdVxMemLoadsTheRegisters : Prop :=
  ∀ (s : State) (x : Reg), (Instr.ldVxMem x).row = ⟨"LD_VX_MEM", 0xF065, 0xF0FF⟩ ∧
    Completes (.ldVxMem x) s (nextAddress s) (.i :: (regsUpTo x).map .v) fun t =>
      (∀ k : Reg, k ≤ x → t.getV k = s.memRead ((s.i.toNat + k.val) % 4096)) ∧
      (∀ k : Reg, x < k → t.getV k = s.getV k) ∧
      (s.cfg.loadStoreIncrementsI = false → t.i = s.i) ∧
      (s.cfg.loadStoreIncrementsI = true → t.i.toNat = (s.i.toNat + x.val + 1) % 4096)

/-- R72 (derived there from R69): a byte that FX55 or FX33 stores over either byte of the next instruction is that
byte of the word at the next fetch: the high byte when it lies at the next address, the low byte when it lies one
above. Both bytes may be stored, or one alone. The digit order of FX33 is the spec's decision D20, and the protected
font D7. -/
def Obligations.StoredWordIsFetchedNext : Prop :=
  ∀ (s t : State) (x : Reg), nextAddress s ≠ 0xFFF →
    (exec (.ldMemVx x) s = .next t → ∀ k : Reg, k ≤ x → ¬ Protected s (s.ea k.val) →
      (s.ea k.val = nextAddress s → t.fetchWord.toNat / 256 = (s.getV k).toNat) ∧
      (s.ea k.val = nextAddress s + 1 → t.fetchWord.toNat % 256 = (s.getV k).toNat)) ∧
    (exec (.ldB x) s = .next t → ∀ k digit : Nat,
      (k = 0 ∧ digit = (s.getV x).toNat / 100 ∨ k = 1 ∧ digit = (s.getV x).toNat / 10 % 10 ∨
        k = 2 ∧ digit = (s.getV x).toNat % 10) →
      ¬ Protected s (s.ea k) →
      (s.ea k = nextAddress s → t.fetchWord.toNat / 256 = digit) ∧
      (s.ea k = nextAddress s + 1 → t.fetchWord.toNat % 256 = digit))

/-! ## Display -/

/-- R210 to R216 (the spec's decisions D14, D22, and D6 for the wrapping sprite address): every pixel is XORed with
its set sprite bit, clipped at the grid's edges, and VF tells whether some lit pixel was under one; N = 0 draws
nothing and clears VF. -/
def Obligations.DrwXorsTheClippedSprite : Prop :=
  ∀ (s : State) (x y : Reg) (n : Nat), n < 16 → (Instr.drw x y n).row = ⟨"DRW", 0xD000, 0xF000⟩ ∧
    Completes (.drw x y n) s (nextAddress s) [.fb, .v 15] fun t =>
      (∀ u v, u < 64 → v < 32 → (Framebuffer.pixel t.fb u v = true ↔
        ¬ (Framebuffer.pixel s.fb u v = true ↔ spriteBit s x y n u v))) ∧
      (t.getV 15 = 0 ∨ t.getV 15 = 1) ∧
      (t.getV 15 = 1 ↔ ∃ u v, u < 64 ∧ v < 32 ∧ spriteBit s x y n u v ∧ Framebuffer.pixel s.fb u v = true)

/-- R217 (derived there from R213 and R214, and corrected against the source by C9): the same sprite drawn again at
the same place, with the picture as the first draw left it, restores every pixel; the first draw collides exactly
when a set unclipped bit covers a lit pixel, the second exactly when one covers a pixel that was off. -/
def Obligations.DrawingTwiceRestoresThePicture : Prop :=
  ∀ (s t u w : State) (x y x' y' : Reg) (n : Nat), exec (.drw x y n) s = .next t →
    u.fb = t.fb → u.getV x' = s.getV x → u.getV y' = s.getV y → u.i = s.i →
    (∀ a, u.memRead a = s.memRead a) → exec (.drw x' y' n) u = .next w →
    (∀ a b, Framebuffer.pixel w.fb a b = Framebuffer.pixel s.fb a b) ∧
    (t.getV 15 = 1 ↔ ∃ a b, a < 64 ∧ b < 32 ∧ spriteBit s x y n a b ∧ Framebuffer.pixel s.fb a b = true) ∧
    (w.getV 15 = 1 ↔ ∃ a b, a < 64 ∧ b < 32 ∧ spriteBit s x y n a b ∧ Framebuffer.pixel s.fb a b = false)

/-! ## Keys and timers -/

/-- R231 and R232: the skips on the key of Vx's low nibble, as this EXEC's sample shows it. -/
def Obligations.SkipsOnAKey : Prop :=
  ∀ (s : State) (x : Reg) (k : Nat), k = (s.getV x).toNat % 16 →
    (Instr.skp x).row = ⟨"SKP", 0xE09E, 0xF0FF⟩ ∧ (Instr.sknp x).row = ⟨"SKNP", 0xE0A1, 0xF0FF⟩ ∧
    Completes (.skp x) s (if s.ports.keys.getLsbD k = true then skipAddress s else nextAddress s) [] (fun _ => True) ∧
    Completes (.sknp x) s (if s.ports.keys.getLsbD k = true then nextAddress s else skipAddress s) [] (fun _ => True)

/-- R233 (the spec's decision D24): FX0A takes the lowest pressed key; with no key pressed it returns NO_PROGRESS
and PC keeps its address. -/
def Obligations.LdVxKTakesTheLowestKeyOrWaits : Prop :=
  ∀ (s : State) (x : Reg), (Instr.ldVxK x).row = ⟨"LD_VX_K", 0xF00A, 0xF0FF⟩ ∧
    (s.ports.keys ≠ 0 → Completes (.ldVxK x) s (nextAddress s) [.v x] fun t =>
      ∃ k, k < 16 ∧ (t.getV x).toNat = k ∧ s.ports.keys.getLsbD k = true ∧
        ∀ j, j < k → s.ports.keys.getLsbD j = false) ∧
    (s.ports.keys = 0 → ∃ t, exec (.ldVxK x) s = .next t ∧ t.ports.result = .noProgress ∧
      OnlyChanges [.result] s t)

/-- R234 to R236: the reads and writes of the timers. -/
def Obligations.TimerInstructionsMoveTheTimers : Prop :=
  ∀ (s : State) (x : Reg),
    (Instr.ldVxDt x).row = ⟨"LD_VX_DT", 0xF007, 0xF0FF⟩ ∧ (Instr.ldDt x).row = ⟨"LD_DT", 0xF015, 0xF0FF⟩ ∧
    (Instr.ldSt x).row = ⟨"LD_ST", 0xF018, 0xF0FF⟩ ∧
    Completes (.ldVxDt x) s (nextAddress s) [.v x] (fun t => t.getV x = s.dt) ∧
    Completes (.ldDt x) s (nextAddress s) [.dt] (fun t => t.dt = s.getV x) ∧
    Completes (.ldSt x) s (nextAddress s) [.st] (fun t => t.st = s.getV x ∧ (t.soundOn = true ↔ s.getV x ≠ 0))
end

