-- ==== Sys2Proof/Laws/State.lean ====
section
/-! SUPPORT. One lemma per field per update of the state, each true by rfl, so that no proof unfolds a record update. -/

namespace Sys2Proof.Machine

section

variable (s : State)

/-! `setV` -/

@[simp] theorem State.setV_v (x : Reg) (b : Byte) : (s.setV x b).v = s.v.set x b := rfl
@[simp] theorem State.setV_i (x : Reg) (b : Byte) : (s.setV x b).i = s.i := rfl
@[simp] theorem State.setV_pc (x : Reg) (b : Byte) : (s.setV x b).pc = s.pc := rfl
@[simp] theorem State.setV_stack (x : Reg) (b : Byte) : (s.setV x b).stack = s.stack := rfl
@[simp] theorem State.setV_sp (x : Reg) (b : Byte) : (s.setV x b).sp = s.sp := rfl
@[simp] theorem State.setV_dt (x : Reg) (b : Byte) : (s.setV x b).dt = s.dt := rfl
@[simp] theorem State.setV_st (x : Reg) (b : Byte) : (s.setV x b).st = s.st := rfl
@[simp] theorem State.setV_mem (x : Reg) (b : Byte) : (s.setV x b).mem = s.mem := rfl
@[simp] theorem State.setV_fb (x : Reg) (b : Byte) : (s.setV x b).fb = s.fb := rfl
@[simp] theorem State.setV_ctrl (x : Reg) (b : Byte) : (s.setV x b).ctrl = s.ctrl := rfl
@[simp] theorem State.setV_cfg (x : Reg) (b : Byte) : (s.setV x b).cfg = s.cfg := rfl
@[simp] theorem State.setV_ports (x : Reg) (b : Byte) : (s.setV x b).ports = s.ports := rfl

/-! `setFlag` -/

@[simp] theorem State.setFlag_v (f : Bool) : (s.setFlag f).v = s.v.set regF (if f then 1 else 0) := rfl
@[simp] theorem State.setFlag_i (f : Bool) : (s.setFlag f).i = s.i := rfl
@[simp] theorem State.setFlag_pc (f : Bool) : (s.setFlag f).pc = s.pc := rfl
@[simp] theorem State.setFlag_stack (f : Bool) : (s.setFlag f).stack = s.stack := rfl
@[simp] theorem State.setFlag_sp (f : Bool) : (s.setFlag f).sp = s.sp := rfl
@[simp] theorem State.setFlag_dt (f : Bool) : (s.setFlag f).dt = s.dt := rfl
@[simp] theorem State.setFlag_st (f : Bool) : (s.setFlag f).st = s.st := rfl
@[simp] theorem State.setFlag_mem (f : Bool) : (s.setFlag f).mem = s.mem := rfl
@[simp] theorem State.setFlag_fb (f : Bool) : (s.setFlag f).fb = s.fb := rfl
@[simp] theorem State.setFlag_ctrl (f : Bool) : (s.setFlag f).ctrl = s.ctrl := rfl
@[simp] theorem State.setFlag_cfg (f : Bool) : (s.setFlag f).cfg = s.cfg := rfl
@[simp] theorem State.setFlag_ports (f : Bool) : (s.setFlag f).ports = s.ports := rfl

/-! `setPc` -/

@[simp] theorem State.setPc_v (t : Nat) : (s.setPc t).v = s.v := rfl
@[simp] theorem State.setPc_i (t : Nat) : (s.setPc t).i = s.i := rfl
@[simp] theorem State.setPc_pc (t : Nat) : (s.setPc t).pc = mask12 t := rfl
@[simp] theorem State.setPc_stack (t : Nat) : (s.setPc t).stack = s.stack := rfl
@[simp] theorem State.setPc_sp (t : Nat) : (s.setPc t).sp = s.sp := rfl
@[simp] theorem State.setPc_dt (t : Nat) : (s.setPc t).dt = s.dt := rfl
@[simp] theorem State.setPc_st (t : Nat) : (s.setPc t).st = s.st := rfl
@[simp] theorem State.setPc_mem (t : Nat) : (s.setPc t).mem = s.mem := rfl
@[simp] theorem State.setPc_fb (t : Nat) : (s.setPc t).fb = s.fb := rfl
@[simp] theorem State.setPc_ctrl (t : Nat) : (s.setPc t).ctrl = s.ctrl := rfl
@[simp] theorem State.setPc_cfg (t : Nat) : (s.setPc t).cfg = s.cfg := rfl
@[simp] theorem State.setPc_ports (t : Nat) : (s.setPc t).ports = s.ports := rfl

/-! `setI` -/

@[simp] theorem State.setI_v (t : Nat) : (s.setI t).v = s.v := rfl
@[simp] theorem State.setI_i (t : Nat) : (s.setI t).i = mask12 t := rfl
@[simp] theorem State.setI_pc (t : Nat) : (s.setI t).pc = s.pc := rfl
@[simp] theorem State.setI_stack (t : Nat) : (s.setI t).stack = s.stack := rfl
@[simp] theorem State.setI_sp (t : Nat) : (s.setI t).sp = s.sp := rfl
@[simp] theorem State.setI_dt (t : Nat) : (s.setI t).dt = s.dt := rfl
@[simp] theorem State.setI_st (t : Nat) : (s.setI t).st = s.st := rfl
@[simp] theorem State.setI_mem (t : Nat) : (s.setI t).mem = s.mem := rfl
@[simp] theorem State.setI_fb (t : Nat) : (s.setI t).fb = s.fb := rfl
@[simp] theorem State.setI_ctrl (t : Nat) : (s.setI t).ctrl = s.ctrl := rfl
@[simp] theorem State.setI_cfg (t : Nat) : (s.setI t).cfg = s.cfg := rfl
@[simp] theorem State.setI_ports (t : Nat) : (s.setI t).ports = s.ports := rfl

/-! `setDt` -/

@[simp] theorem State.setDt_v (b : Byte) : (s.setDt b).v = s.v := rfl
@[simp] theorem State.setDt_i (b : Byte) : (s.setDt b).i = s.i := rfl
@[simp] theorem State.setDt_pc (b : Byte) : (s.setDt b).pc = s.pc := rfl
@[simp] theorem State.setDt_stack (b : Byte) : (s.setDt b).stack = s.stack := rfl
@[simp] theorem State.setDt_sp (b : Byte) : (s.setDt b).sp = s.sp := rfl
@[simp] theorem State.setDt_dt (b : Byte) : (s.setDt b).dt = b := rfl
@[simp] theorem State.setDt_st (b : Byte) : (s.setDt b).st = s.st := rfl
@[simp] theorem State.setDt_mem (b : Byte) : (s.setDt b).mem = s.mem := rfl
@[simp] theorem State.setDt_fb (b : Byte) : (s.setDt b).fb = s.fb := rfl
@[simp] theorem State.setDt_ctrl (b : Byte) : (s.setDt b).ctrl = s.ctrl := rfl
@[simp] theorem State.setDt_cfg (b : Byte) : (s.setDt b).cfg = s.cfg := rfl
@[simp] theorem State.setDt_ports (b : Byte) : (s.setDt b).ports = s.ports := rfl

/-! `setSt` -/

@[simp] theorem State.setSt_v (b : Byte) : (s.setSt b).v = s.v := rfl
@[simp] theorem State.setSt_i (b : Byte) : (s.setSt b).i = s.i := rfl
@[simp] theorem State.setSt_pc (b : Byte) : (s.setSt b).pc = s.pc := rfl
@[simp] theorem State.setSt_stack (b : Byte) : (s.setSt b).stack = s.stack := rfl
@[simp] theorem State.setSt_sp (b : Byte) : (s.setSt b).sp = s.sp := rfl
@[simp] theorem State.setSt_dt (b : Byte) : (s.setSt b).dt = s.dt := rfl
@[simp] theorem State.setSt_st (b : Byte) : (s.setSt b).st = b := rfl
@[simp] theorem State.setSt_mem (b : Byte) : (s.setSt b).mem = s.mem := rfl
@[simp] theorem State.setSt_fb (b : Byte) : (s.setSt b).fb = s.fb := rfl
@[simp] theorem State.setSt_ctrl (b : Byte) : (s.setSt b).ctrl = s.ctrl := rfl
@[simp] theorem State.setSt_cfg (b : Byte) : (s.setSt b).cfg = s.cfg := rfl
@[simp] theorem State.setSt_ports (b : Byte) : (s.setSt b).ports = s.ports := rfl

/-! `setFb` -/

@[simp] theorem State.setFb_v (fb : Framebuffer) : (s.setFb fb).v = s.v := rfl
@[simp] theorem State.setFb_i (fb : Framebuffer) : (s.setFb fb).i = s.i := rfl
@[simp] theorem State.setFb_pc (fb : Framebuffer) : (s.setFb fb).pc = s.pc := rfl
@[simp] theorem State.setFb_stack (fb : Framebuffer) : (s.setFb fb).stack = s.stack := rfl
@[simp] theorem State.setFb_sp (fb : Framebuffer) : (s.setFb fb).sp = s.sp := rfl
@[simp] theorem State.setFb_dt (fb : Framebuffer) : (s.setFb fb).dt = s.dt := rfl
@[simp] theorem State.setFb_st (fb : Framebuffer) : (s.setFb fb).st = s.st := rfl
@[simp] theorem State.setFb_mem (fb : Framebuffer) : (s.setFb fb).mem = s.mem := rfl
@[simp] theorem State.setFb_fb (fb : Framebuffer) : (s.setFb fb).fb = fb := rfl
@[simp] theorem State.setFb_ctrl (fb : Framebuffer) : (s.setFb fb).ctrl = s.ctrl := rfl
@[simp] theorem State.setFb_cfg (fb : Framebuffer) : (s.setFb fb).cfg = s.cfg := rfl
@[simp] theorem State.setFb_ports (fb : Framebuffer) : (s.setFb fb).ports = s.ports := rfl

/-! `setMem` -/

@[simp] theorem State.setMem_v (m : Memory) : (s.setMem m).v = s.v := rfl
@[simp] theorem State.setMem_i (m : Memory) : (s.setMem m).i = s.i := rfl
@[simp] theorem State.setMem_pc (m : Memory) : (s.setMem m).pc = s.pc := rfl
@[simp] theorem State.setMem_stack (m : Memory) : (s.setMem m).stack = s.stack := rfl
@[simp] theorem State.setMem_sp (m : Memory) : (s.setMem m).sp = s.sp := rfl
@[simp] theorem State.setMem_dt (m : Memory) : (s.setMem m).dt = s.dt := rfl
@[simp] theorem State.setMem_st (m : Memory) : (s.setMem m).st = s.st := rfl
@[simp] theorem State.setMem_mem (m : Memory) : (s.setMem m).mem = m := rfl
@[simp] theorem State.setMem_fb (m : Memory) : (s.setMem m).fb = s.fb := rfl
@[simp] theorem State.setMem_ctrl (m : Memory) : (s.setMem m).ctrl = s.ctrl := rfl
@[simp] theorem State.setMem_cfg (m : Memory) : (s.setMem m).cfg = s.cfg := rfl
@[simp] theorem State.setMem_ports (m : Memory) : (s.setMem m).ports = s.ports := rfl

/-! `setCtrl` -/

@[simp] theorem State.setCtrl_v (c : Ctrl) : (s.setCtrl c).v = s.v := rfl
@[simp] theorem State.setCtrl_i (c : Ctrl) : (s.setCtrl c).i = s.i := rfl
@[simp] theorem State.setCtrl_pc (c : Ctrl) : (s.setCtrl c).pc = s.pc := rfl
@[simp] theorem State.setCtrl_stack (c : Ctrl) : (s.setCtrl c).stack = s.stack := rfl
@[simp] theorem State.setCtrl_sp (c : Ctrl) : (s.setCtrl c).sp = s.sp := rfl
@[simp] theorem State.setCtrl_dt (c : Ctrl) : (s.setCtrl c).dt = s.dt := rfl
@[simp] theorem State.setCtrl_st (c : Ctrl) : (s.setCtrl c).st = s.st := rfl
@[simp] theorem State.setCtrl_mem (c : Ctrl) : (s.setCtrl c).mem = s.mem := rfl
@[simp] theorem State.setCtrl_fb (c : Ctrl) : (s.setCtrl c).fb = s.fb := rfl
@[simp] theorem State.setCtrl_ctrl (c : Ctrl) : (s.setCtrl c).ctrl = c := rfl
@[simp] theorem State.setCtrl_cfg (c : Ctrl) : (s.setCtrl c).cfg = s.cfg := rfl
@[simp] theorem State.setCtrl_ports (c : Ctrl) : (s.setCtrl c).ports = s.ports := rfl

/-! `setPorts` -/

@[simp] theorem State.setPorts_v (p : Ports) : (s.setPorts p).v = s.v := rfl
@[simp] theorem State.setPorts_i (p : Ports) : (s.setPorts p).i = s.i := rfl
@[simp] theorem State.setPorts_pc (p : Ports) : (s.setPorts p).pc = s.pc := rfl
@[simp] theorem State.setPorts_stack (p : Ports) : (s.setPorts p).stack = s.stack := rfl
@[simp] theorem State.setPorts_sp (p : Ports) : (s.setPorts p).sp = s.sp := rfl
@[simp] theorem State.setPorts_dt (p : Ports) : (s.setPorts p).dt = s.dt := rfl
@[simp] theorem State.setPorts_st (p : Ports) : (s.setPorts p).st = s.st := rfl
@[simp] theorem State.setPorts_mem (p : Ports) : (s.setPorts p).mem = s.mem := rfl
@[simp] theorem State.setPorts_fb (p : Ports) : (s.setPorts p).fb = s.fb := rfl
@[simp] theorem State.setPorts_ctrl (p : Ports) : (s.setPorts p).ctrl = s.ctrl := rfl
@[simp] theorem State.setPorts_cfg (p : Ports) : (s.setPorts p).cfg = s.cfg := rfl
@[simp] theorem State.setPorts_ports (p : Ports) : (s.setPorts p).ports = p := rfl

/-! `setResult` -/

@[simp] theorem State.setResult_v (r : CommandResult) : (s.setResult r).v = s.v := rfl
@[simp] theorem State.setResult_i (r : CommandResult) : (s.setResult r).i = s.i := rfl
@[simp] theorem State.setResult_pc (r : CommandResult) : (s.setResult r).pc = s.pc := rfl
@[simp] theorem State.setResult_stack (r : CommandResult) : (s.setResult r).stack = s.stack := rfl
@[simp] theorem State.setResult_sp (r : CommandResult) : (s.setResult r).sp = s.sp := rfl
@[simp] theorem State.setResult_dt (r : CommandResult) : (s.setResult r).dt = s.dt := rfl
@[simp] theorem State.setResult_st (r : CommandResult) : (s.setResult r).st = s.st := rfl
@[simp] theorem State.setResult_mem (r : CommandResult) : (s.setResult r).mem = s.mem := rfl
@[simp] theorem State.setResult_fb (r : CommandResult) : (s.setResult r).fb = s.fb := rfl
@[simp] theorem State.setResult_ctrl (r : CommandResult) : (s.setResult r).ctrl = s.ctrl := rfl
@[simp] theorem State.setResult_cfg (r : CommandResult) : (s.setResult r).cfg = s.cfg := rfl
@[simp] theorem State.setResult_ports (r : CommandResult) : (s.setResult r).ports = { s.ports with result := r } := rfl

/-! `committed` -/

@[simp] theorem State.committed_v : (s.committed).v = s.v := rfl
@[simp] theorem State.committed_i : (s.committed).i = s.i := rfl
@[simp] theorem State.committed_pc : (s.committed).pc = s.pc := rfl
@[simp] theorem State.committed_stack : (s.committed).stack = s.stack := rfl
@[simp] theorem State.committed_sp : (s.committed).sp = s.sp := rfl
@[simp] theorem State.committed_dt : (s.committed).dt = s.dt := rfl
@[simp] theorem State.committed_st : (s.committed).st = s.st := rfl
@[simp] theorem State.committed_mem : (s.committed).mem = s.mem := rfl
@[simp] theorem State.committed_fb : (s.committed).fb = s.fb := rfl
@[simp] theorem State.committed_ctrl : (s.committed).ctrl = s.ctrl := rfl
@[simp] theorem State.committed_cfg : (s.committed).cfg = s.cfg := rfl
@[simp] theorem State.committed_ports : (s.committed).ports = { s.ports with result := .progress } := rfl

/-! `stalled` -/

@[simp] theorem State.stalled_v : (s.stalled).v = s.v := rfl
@[simp] theorem State.stalled_i : (s.stalled).i = s.i := rfl
@[simp] theorem State.stalled_pc : (s.stalled).pc = s.pc := rfl
@[simp] theorem State.stalled_stack : (s.stalled).stack = s.stack := rfl
@[simp] theorem State.stalled_sp : (s.stalled).sp = s.sp := rfl
@[simp] theorem State.stalled_dt : (s.stalled).dt = s.dt := rfl
@[simp] theorem State.stalled_st : (s.stalled).st = s.st := rfl
@[simp] theorem State.stalled_mem : (s.stalled).mem = s.mem := rfl
@[simp] theorem State.stalled_fb : (s.stalled).fb = s.fb := rfl
@[simp] theorem State.stalled_ctrl : (s.stalled).ctrl = s.ctrl := rfl
@[simp] theorem State.stalled_cfg : (s.stalled).cfg = s.cfg := rfl
@[simp] theorem State.stalled_ports : (s.stalled).ports = { s.ports with result := .noProgress } := rfl

/-! `advanced` -/

@[simp] theorem State.advanced_v : (s.advanced).v = s.v := rfl
@[simp] theorem State.advanced_i : (s.advanced).i = s.i := rfl
@[simp] theorem State.advanced_pc : (s.advanced).pc = mask12 s.npc := rfl
@[simp] theorem State.advanced_stack : (s.advanced).stack = s.stack := rfl
@[simp] theorem State.advanced_sp : (s.advanced).sp = s.sp := rfl
@[simp] theorem State.advanced_dt : (s.advanced).dt = s.dt := rfl
@[simp] theorem State.advanced_st : (s.advanced).st = s.st := rfl
@[simp] theorem State.advanced_mem : (s.advanced).mem = s.mem := rfl
@[simp] theorem State.advanced_fb : (s.advanced).fb = s.fb := rfl
@[simp] theorem State.advanced_ctrl : (s.advanced).ctrl = s.ctrl := rfl
@[simp] theorem State.advanced_cfg : (s.advanced).cfg = s.cfg := rfl
@[simp] theorem State.advanced_ports : (s.advanced).ports = { s.ports with result := .progress } := rfl

/-! `sample` -/

@[simp] theorem State.sample_v (k : BitVec 16) (r : Byte) : (s.sample k r).v = s.v := rfl
@[simp] theorem State.sample_i (k : BitVec 16) (r : Byte) : (s.sample k r).i = s.i := rfl
@[simp] theorem State.sample_pc (k : BitVec 16) (r : Byte) : (s.sample k r).pc = s.pc := rfl
@[simp] theorem State.sample_stack (k : BitVec 16) (r : Byte) : (s.sample k r).stack = s.stack := rfl
@[simp] theorem State.sample_sp (k : BitVec 16) (r : Byte) : (s.sample k r).sp = s.sp := rfl
@[simp] theorem State.sample_dt (k : BitVec 16) (r : Byte) : (s.sample k r).dt = s.dt := rfl
@[simp] theorem State.sample_st (k : BitVec 16) (r : Byte) : (s.sample k r).st = s.st := rfl
@[simp] theorem State.sample_mem (k : BitVec 16) (r : Byte) : (s.sample k r).mem = s.mem := rfl
@[simp] theorem State.sample_fb (k : BitVec 16) (r : Byte) : (s.sample k r).fb = s.fb := rfl
@[simp] theorem State.sample_ctrl (k : BitVec 16) (r : Byte) : (s.sample k r).ctrl = s.ctrl := rfl
@[simp] theorem State.sample_cfg (k : BitVec 16) (r : Byte) : (s.sample k r).cfg = s.cfg := rfl
@[simp] theorem State.sample_ports (k : BitVec 16) (r : Byte) : (s.sample k r).ports = { s.ports with keys := k, rnd := r } := rfl

/-! `markStarted` -/

@[simp] theorem State.markStarted_v : (s.markStarted).v = s.v := rfl
@[simp] theorem State.markStarted_i : (s.markStarted).i = s.i := rfl
@[simp] theorem State.markStarted_pc : (s.markStarted).pc = s.pc := rfl
@[simp] theorem State.markStarted_stack : (s.markStarted).stack = s.stack := rfl
@[simp] theorem State.markStarted_sp : (s.markStarted).sp = s.sp := rfl
@[simp] theorem State.markStarted_dt : (s.markStarted).dt = s.dt := rfl
@[simp] theorem State.markStarted_st : (s.markStarted).st = s.st := rfl
@[simp] theorem State.markStarted_mem : (s.markStarted).mem = s.mem := rfl
@[simp] theorem State.markStarted_fb : (s.markStarted).fb = s.fb := rfl
@[simp] theorem State.markStarted_ctrl : (s.markStarted).ctrl = { s.ctrl with started := true } := rfl
@[simp] theorem State.markStarted_cfg : (s.markStarted).cfg = s.cfg := rfl
@[simp] theorem State.markStarted_ports : (s.markStarted).ports = s.ports := rfl

/-! `memWrite` changes the memory alone. -/

@[simp] theorem State.memWrite_v (a : Nat) (b : Byte) : (s.memWrite a b).v = s.v := by
  unfold State.memWrite; split <;> rfl
@[simp] theorem State.memWrite_i (a : Nat) (b : Byte) : (s.memWrite a b).i = s.i := by
  unfold State.memWrite; split <;> rfl
@[simp] theorem State.memWrite_pc (a : Nat) (b : Byte) : (s.memWrite a b).pc = s.pc := by
  unfold State.memWrite; split <;> rfl
@[simp] theorem State.memWrite_stack (a : Nat) (b : Byte) : (s.memWrite a b).stack = s.stack := by
  unfold State.memWrite; split <;> rfl
@[simp] theorem State.memWrite_sp (a : Nat) (b : Byte) : (s.memWrite a b).sp = s.sp := by
  unfold State.memWrite; split <;> rfl
@[simp] theorem State.memWrite_dt (a : Nat) (b : Byte) : (s.memWrite a b).dt = s.dt := by
  unfold State.memWrite; split <;> rfl
@[simp] theorem State.memWrite_st (a : Nat) (b : Byte) : (s.memWrite a b).st = s.st := by
  unfold State.memWrite; split <;> rfl
@[simp] theorem State.memWrite_fb (a : Nat) (b : Byte) : (s.memWrite a b).fb = s.fb := by
  unfold State.memWrite; split <;> rfl
@[simp] theorem State.memWrite_ctrl (a : Nat) (b : Byte) : (s.memWrite a b).ctrl = s.ctrl := by
  unfold State.memWrite; split <;> rfl
@[simp] theorem State.memWrite_cfg (a : Nat) (b : Byte) : (s.memWrite a b).cfg = s.cfg := by
  unfold State.memWrite; split <;> rfl
@[simp] theorem State.memWrite_ports (a : Nat) (b : Byte) : (s.memWrite a b).ports = s.ports := by
  unfold State.memWrite; split <;> rfl

/-! `stepIndex` changes I alone. -/

@[simp] theorem State.stepIndex_v (x : Reg) : (s.stepIndex x).v = s.v := by
  unfold State.stepIndex; split <;> rfl
@[simp] theorem State.stepIndex_pc (x : Reg) : (s.stepIndex x).pc = s.pc := by
  unfold State.stepIndex; split <;> rfl
@[simp] theorem State.stepIndex_stack (x : Reg) : (s.stepIndex x).stack = s.stack := by
  unfold State.stepIndex; split <;> rfl
@[simp] theorem State.stepIndex_sp (x : Reg) : (s.stepIndex x).sp = s.sp := by
  unfold State.stepIndex; split <;> rfl
@[simp] theorem State.stepIndex_dt (x : Reg) : (s.stepIndex x).dt = s.dt := by
  unfold State.stepIndex; split <;> rfl
@[simp] theorem State.stepIndex_st (x : Reg) : (s.stepIndex x).st = s.st := by
  unfold State.stepIndex; split <;> rfl
@[simp] theorem State.stepIndex_mem (x : Reg) : (s.stepIndex x).mem = s.mem := by
  unfold State.stepIndex; split <;> rfl
@[simp] theorem State.stepIndex_fb (x : Reg) : (s.stepIndex x).fb = s.fb := by
  unfold State.stepIndex; split <;> rfl
@[simp] theorem State.stepIndex_ctrl (x : Reg) : (s.stepIndex x).ctrl = s.ctrl := by
  unfold State.stepIndex; split <;> rfl
@[simp] theorem State.stepIndex_cfg (x : Reg) : (s.stepIndex x).cfg = s.cfg := by
  unfold State.stepIndex; split <;> rfl
@[simp] theorem State.stepIndex_ports (x : Reg) : (s.stepIndex x).ports = s.ports := by
  unfold State.stepIndex; split <;> rfl

end

end Sys2Proof.Machine
end

