-- ==== Sys2Proof/Laws/Registers.lean ====
section
/-! SUPPORT. What the register operations do: reads after writes, and the 12-bit mask. -/

namespace Sys2Proof.Machine

section

variable (s : State)

@[simp] theorem mask12_toNat (t : Nat) : (mask12 t).toNat = t % 4096 := by
  simp only [mask12, BitVec.toNat_ofNat]; omega

theorem mask12_lt (t : Nat) : (mask12 t).toNat < 4096 := by
  rw [mask12_toNat]; exact Nat.mod_lt _ (by decide)

theorem State.npc_lt : s.npc < 4096 := Nat.mod_lt _ (by decide)

/-- All a register write does: the named register holds the byte, every other keeps its value. -/
theorem State.getV_setV (x r : Reg) (b : Byte) : (s.setV x b).getV r = if r = x then b else s.getV r := by
  unfold State.getV
  rw [State.setV_v]
  simp only [Fin.getElem_fin]
  rw [Vector.getElem_set]
  by_cases h : r = x
  · simp [h]
  · rw [if_neg h, if_neg fun e => h (Fin.ext e.symm)]

@[simp] theorem State.getV_setV_same (x : Reg) (b : Byte) : (s.setV x b).getV x = b := by
  simp [State.getV_setV]

theorem State.getV_setV_ne {x r : Reg} (b : Byte) (h : r ≠ x) : (s.setV x b).getV r = s.getV r := by
  simp [State.getV_setV, h]

/-- A flag write is a write of VF. -/
theorem State.getV_setFlag (r : Reg) (f : Bool) :
    (s.setFlag f).getV r = if r = regF then (if f then 1 else 0) else s.getV r := by
  unfold State.setFlag; exact s.getV_setV regF r _

/-- Everything a result-and-flag write does (R165): VF holds the flag, whichever register held the result. -/
theorem State.getV_setResultAndFlag (x r : Reg) (p : Byte × Bool) :
    (s.setResultAndFlag x p).getV r =
      if r = regF then (if p.2 then 1 else 0) else if r = x then p.1 else s.getV r := by
  unfold State.setResultAndFlag
  rw [State.getV_setFlag, State.getV_setV]

@[simp] theorem State.getV_setPc (t : Nat) (r : Reg) : (s.setPc t).getV r = s.getV r := rfl
@[simp] theorem State.getV_setI (t : Nat) (r : Reg) : (s.setI t).getV r = s.getV r := rfl
@[simp] theorem State.getV_setDt (b : Byte) (r : Reg) : (s.setDt b).getV r = s.getV r := rfl
@[simp] theorem State.getV_setSt (b : Byte) (r : Reg) : (s.setSt b).getV r = s.getV r := rfl
@[simp] theorem State.getV_setFb (f : Framebuffer) (r : Reg) : (s.setFb f).getV r = s.getV r := rfl
@[simp] theorem State.getV_setMem (m : Memory) (r : Reg) : (s.setMem m).getV r = s.getV r := rfl
@[simp] theorem State.getV_setCtrl (c : Ctrl) (r : Reg) : (s.setCtrl c).getV r = s.getV r := rfl
@[simp] theorem State.getV_setPorts (p : Ports) (r : Reg) : (s.setPorts p).getV r = s.getV r := rfl
@[simp] theorem State.getV_setResult (c : CommandResult) (r : Reg) : (s.setResult c).getV r = s.getV r := rfl
@[simp] theorem State.getV_committed (r : Reg) : s.committed.getV r = s.getV r := rfl
@[simp] theorem State.getV_stalled (r : Reg) : s.stalled.getV r = s.getV r := rfl
@[simp] theorem State.getV_advanced (r : Reg) : s.advanced.getV r = s.getV r := rfl
@[simp] theorem State.getV_memWrite (a : Nat) (b : Byte) (r : Reg) : (s.memWrite a b).getV r = s.getV r := by
  simp [State.getV]
@[simp] theorem State.getV_stepIndex (x r : Reg) : (s.stepIndex x).getV r = s.getV r := by
  simp [State.getV]

/-- I after `stepIndex`, both values of LOAD_STORE_INCREMENTS_I (R194, R195). -/
theorem State.stepIndex_i (x : Reg) :
    (s.stepIndex x).i = if s.cfg.loadStoreIncrementsI then mask12 (s.i.toNat + x.val + 1) else s.i := by
  unfold State.stepIndex; split <;> rfl

end

end Sys2Proof.Machine
end

