-- ==== Sys2Proof/Laws/Memory.lean ====
section
/-! SUPPORT. The laws of memory: a read after a write, the canonical form, the byte-sequence store. -/

namespace Sys2Proof.Machine

open Sys2Proof.Config

section

variable (font : Font)

/-- Taking an entry out leaves every other address as it was. -/
theorem Memory.read_drop_ne (m : Memory) {a b : Nat} (h : b ≠ a) :
    Memory.read font (Memory.drop m a) b = Memory.read font m b := by
  induction m with
  | nil => rfl
  | cons c m ih =>
    obtain ⟨d, w⟩ := c
    unfold Memory.drop at ih ⊢
    by_cases hd : d = a
    · simp [hd, Memory.read, Ne.symm h, ih]
    · simp [hd, Memory.read, ih]

/-- An address whose entry is taken out reads as unlisted. -/
theorem Memory.read_drop_same (m : Memory) (a : Nat) :
    Memory.read font (Memory.drop m a) a = Memory.unlisted font a := by
  induction m with
  | nil => rfl
  | cons c m ih =>
    obtain ⟨d, w⟩ := c
    unfold Memory.drop at ih ⊢
    by_cases hd : d = a
    · simp [hd, ih]
    · simp [hd, Memory.read, ih]

/-- No entry of the address is left. -/
theorem Memory.not_mem_drop (m : Memory) (a : Nat) : ∀ c ∈ Memory.drop m a, c.1 ≠ a := by
  intro c hc
  simpa using (List.mem_filter.1 hc).2

/-- Placing a cell changes the read of its own address alone. -/
theorem Memory.read_place (m : Memory) (a b : Nat) (v : Byte) (hm : ∀ c ∈ m, c.1 ≠ a) :
    Memory.read font (Memory.place a v m) b = if b = a then v else Memory.read font m b := by
  induction m with
  | nil =>
    by_cases h : b = a
    · simp [Memory.place, Memory.read, h]
    · simp [Memory.place, Memory.read, h, Ne.symm h]
  | cons c m ih =>
    have hc : c.1 ≠ a := hm c List.mem_cons_self
    have ih := ih fun d hd => hm d (List.mem_cons_of_mem _ hd)
    unfold Memory.place
    split
    · by_cases h : b = a
      · simp [Memory.read, h]
      · simp [Memory.read, h, Ne.symm h]
    · by_cases h : b = a
      · subst h; simp [Memory.read, hc, ih]
      · simp only [Memory.read, ih, h, if_false]

/-- THE READ-AFTER-WRITE LAW: a write changes the byte at its own address and no other. -/
theorem Memory.read_write (m : Memory) (a b : Nat) (v : Byte) :
    Memory.read font (Memory.write font m a v) b = if b = a then v else Memory.read font m b := by
  unfold Memory.write
  by_cases hv : v = Memory.unlisted font a
  · rw [if_pos hv]
    by_cases h : b = a
    · rw [if_pos h, h, Memory.read_drop_same, hv]
    · rw [if_neg h, Memory.read_drop_ne font m h]
  · rw [if_neg hv, Memory.read_place font _ a b v (Memory.not_mem_drop m a)]
    by_cases h : b = a
    · simp [h]
    · simp [h, Memory.read_drop_ne font m h]

/-- Taking an entry out keeps the canonical form. -/
theorem Memory.wf_drop {m : Memory} (hm : Memory.wf font m) (a : Nat) : Memory.wf font (Memory.drop m a) :=
  ⟨hm.1.filter _, fun c hc => hm.2 c (List.mem_of_mem_filter hc)⟩

/-- The cells of a memory with one placed in it. -/
theorem Memory.mem_place (a : Nat) (v : Byte) (m : Memory) (c : Host.Cell) :
    c ∈ Memory.place a v m ↔ c = (a, v) ∨ c ∈ m := by
  induction m with
  | nil => simp [Memory.place]
  | cons d m ih =>
    unfold Memory.place
    split
    · simp
    · simp only [List.mem_cons, ih]; tauto

/-- Placing a cell that may be listed, where its address is not listed, keeps the canonical form. -/
theorem Memory.wf_place {m : Memory} {a : Nat} {v : Byte} (hm : Memory.wf font m) (ha : a < memSize)
    (hv : v ≠ Memory.unlisted font a) (hne : ∀ c ∈ m, c.1 ≠ a) : Memory.wf font (Memory.place a v m) := by
  refine ⟨?_, fun c hc => ?_⟩
  · have hs := hm.1
    clear hm
    induction m with
    | nil => simp [Memory.place]
    | cons d m ih =>
      rw [List.pairwise_cons] at hs
      have hd : d.1 ≠ a := hne d List.mem_cons_self
      unfold Memory.place
      split
      · next hlt =>
        refine List.pairwise_cons.2 ⟨fun c hc => ?_, List.pairwise_cons.2 hs⟩
        rcases List.mem_cons.1 hc with rfl | hc
        · exact hlt
        · exact hlt.trans (hs.1 c hc)
      · next hlt =>
        refine List.pairwise_cons.2 ⟨fun c hc => ?_, ih (fun c hc => hne c (List.mem_cons_of_mem _ hc)) hs.2⟩
        rcases (Memory.mem_place a v m c).1 hc with rfl | hc
        · exact Nat.lt_of_le_of_ne (Nat.not_lt.1 hlt) hd
        · exact hs.1 c hc
  · rcases (Memory.mem_place a v m c).1 hc with rfl | hc
    · exact ⟨ha, hv⟩
    · exact hm.2 c hc

/-- EVERY WRITE KEEPS THE CANONICAL FORM. -/
theorem Memory.wf_write {m : Memory} (hm : Memory.wf font m) {a : Nat} (ha : a < memSize) (v : Byte) :
    Memory.wf font (Memory.write font m a v) := by
  unfold Memory.write
  split
  · exact Memory.wf_drop font hm a
  · next hv => exact Memory.wf_place font (Memory.wf_drop font hm a) ha hv (Memory.not_mem_drop m a)

/-- Reset memory is in canonical form. -/
theorem Memory.wf_nil : Memory.wf font [] := by simp [Memory.wf]

/-- Storing consecutive bytes keeps the canonical form. -/
theorem Memory.wf_storeBytes {m : Memory} (hm : Memory.wf font m) {a : Nat} (bs : List Byte)
    (ha : a + bs.length ≤ memSize) : Memory.wf font (Memory.storeBytes font m a bs) := by
  induction bs generalizing m a with
  | nil => exact hm
  | cons b bs ih =>
    simp only [List.length_cons] at ha
    exact ih (Memory.wf_write font hm (by omega) b) (by omega)

/-- All a byte-sequence store does: byte k lands at `a + k`, every other address keeps its byte. -/
theorem Memory.read_storeBytes (m : Memory) (a b : Nat) (bs : List Byte) :
    Memory.read font (Memory.storeBytes font m a bs) b =
      if a ≤ b ∧ b < a + bs.length then bs.getD (b - a) 0 else Memory.read font m b := by
  induction bs generalizing m a with
  | nil => rw [if_neg (by simp)]; rfl
  | cons x bs ih =>
    rw [Memory.storeBytes, ih, Memory.read_write]
    simp only [List.length_cons]
    by_cases hb : b = a
    · subst hb
      rw [if_neg (by omega), if_pos rfl, if_pos (by omega)]
      simp
    · by_cases hin : a + 1 ≤ b ∧ b < a + 1 + bs.length
      · rw [if_pos hin, if_pos (by omega), show b - a = (b - (a + 1)) + 1 by omega]
        simp
      · rw [if_neg hin, if_neg hb, if_neg (by omega)]

end

section

variable (s : State)

/-- All `MemWrite` does (R61): an unprotected address takes the byte, every other address keeps its own. -/
theorem State.memRead_memWrite (a b : Nat) (v : Byte) :
    (s.memWrite a v).memRead b = if b = a ∧ s.writeProtected a = false then v else s.memRead b := by
  cases hp : s.writeProtected a
  · have : s.memWrite a v = s.setMem (Memory.write s.cfg.font s.mem a v) := by simp [State.memWrite, hp]
    rw [this]
    simp [State.memRead, Memory.read_write]
  · have : s.memWrite a v = s := by simp [State.memWrite, hp]
    rw [this]
    simp

/-- `MemWrite` keeps the canonical form. -/
theorem State.memWrite_wf (h : Memory.wf s.cfg.font s.mem) {a : Nat} (ha : a < memSize) (v : Byte) :
    Memory.wf s.cfg.font (s.memWrite a v).mem := by
  unfold State.memWrite
  split
  · exact h
  · exact Memory.wf_write s.cfg.font h ha v

/-- Whether a write is discarded depends on the parameters and the address alone. -/
@[simp] theorem State.writeProtected_memWrite (a b : Nat) (v : Byte) :
    (s.memWrite a v).writeProtected b = s.writeProtected b := by
  simp [State.writeProtected]

/-- Every data address lies in memory (R59). -/
theorem State.ea_lt (k : Nat) : s.ea k < memSize := Nat.mod_lt _ (by decide)

@[simp] theorem State.memRead_setV (x : Reg) (b : Byte) (a : Nat) : (s.setV x b).memRead a = s.memRead a := rfl
@[simp] theorem State.memRead_setFlag (f : Bool) (a : Nat) : (s.setFlag f).memRead a = s.memRead a := rfl
@[simp] theorem State.memRead_setPc (t a : Nat) : (s.setPc t).memRead a = s.memRead a := rfl
@[simp] theorem State.memRead_setI (t a : Nat) : (s.setI t).memRead a = s.memRead a := rfl
@[simp] theorem State.memRead_setDt (b : Byte) (a : Nat) : (s.setDt b).memRead a = s.memRead a := rfl
@[simp] theorem State.memRead_setSt (b : Byte) (a : Nat) : (s.setSt b).memRead a = s.memRead a := rfl
@[simp] theorem State.memRead_setFb (f : Framebuffer) (a : Nat) : (s.setFb f).memRead a = s.memRead a := rfl
@[simp] theorem State.memRead_setCtrl (c : Ctrl) (a : Nat) : (s.setCtrl c).memRead a = s.memRead a := rfl
@[simp] theorem State.memRead_setPorts (p : Ports) (a : Nat) : (s.setPorts p).memRead a = s.memRead a := rfl
@[simp] theorem State.memRead_setResult (r : CommandResult) (a : Nat) :
    (s.setResult r).memRead a = s.memRead a := rfl
@[simp] theorem State.memRead_committed (a : Nat) : s.committed.memRead a = s.memRead a := rfl
@[simp] theorem State.memRead_stalled (a : Nat) : s.stalled.memRead a = s.memRead a := rfl
@[simp] theorem State.memRead_advanced (a : Nat) : s.advanced.memRead a = s.memRead a := rfl
@[simp] theorem State.memRead_stepIndex (x : Reg) (a : Nat) : (s.stepIndex x).memRead a = s.memRead a := by
  simp [State.memRead]

end

end Sys2Proof.Machine
end

