-- ==== Sys2Proof/Laws/Framebuffer.lean ====
section
/-! SUPPORT. The laws of the framebuffer: one pixel after a toggle, after a clear. -/

namespace Sys2Proof.Machine

open Sys2Proof.Config

/-- All `FbToggle` writes (R67): an in-range pixel is inverted, every other keeps its value. -/
theorem Framebuffer.pixel_toggle (fb : Framebuffer) (x y u v : Nat) :
    Framebuffer.pixel (Framebuffer.toggle fb x y) u v =
      (Framebuffer.pixel fb u v ^^ decide (u = x ∧ v = y ∧ x < fbWidth ∧ y < fbHeight)) := by
  unfold Framebuffer.toggle
  by_cases h : y < 32 ∧ x < 64
  · rw [dif_pos h]
    unfold Framebuffer.pixel
    by_cases hu : v < 32 ∧ u < 64
    · rw [dif_pos hu, dif_pos hu]
      by_cases hv : y = v
      · subst hv
        rw [Vector.getElem_set_self]
        by_cases hx : x = u
        · subst hx
          simp [h.1, h.2]
        · rw [Vector.getElem_set_ne _ _ hx]
          simp [Ne.symm hx]
      · rw [Vector.getElem_set_ne _ _ hv]
        simp [Ne.symm hv]
    · rw [dif_neg hu, dif_neg hu]
      have : ¬(u = x ∧ v = y ∧ x < fbWidth ∧ y < fbHeight) := fun e => hu ⟨e.2.1 ▸ h.1, e.1 ▸ h.2⟩
      simp [this]
  · rw [dif_neg h]
    have : ¬(u = x ∧ v = y ∧ x < fbWidth ∧ y < fbHeight) := fun e => h ⟨e.2.2.2, e.2.2.1⟩
    simp [this]

/-- After `FbClear` every pixel is off (R68). -/
@[simp] theorem Framebuffer.pixel_clear (x y : Nat) : Framebuffer.pixel Framebuffer.clear x y = false := by
  unfold Framebuffer.pixel Framebuffer.clear
  split <;> simp

/-- No pixel outside the grid is on. -/
theorem Framebuffer.pixel_outside (fb : Framebuffer) {x y : Nat} (h : ¬(y < 32 ∧ x < 64)) :
    Framebuffer.pixel fb x y = false := dif_neg h

/-- A framebuffer is its pixels. -/
theorem Framebuffer.ext_pixel {f g : Framebuffer}
    (h : ∀ x y, Framebuffer.pixel f x y = Framebuffer.pixel g x y) : f = g := by
  apply Vector.ext
  intro y hy
  apply Vector.ext
  intro x hx
  have := h x y
  simpa [Framebuffer.pixel, hy, hx] using this

/-- All one sprite bit does to a pixel (R212, R213). -/
theorem drawBit_pixel (b : Byte) (x0 y : Nat) (canvas : Canvas) (c u v : Nat) :
    Framebuffer.pixel (drawBit b x0 y canvas c).1 u v =
      (Framebuffer.pixel canvas.1 u v ^^
        decide (u = x0 + c ∧ v = y ∧ u < fbWidth ∧ v < fbHeight ∧ b.getLsbD (7 - c) = true)) := by
  unfold drawBit
  split
  · next h =>
    rw [Framebuffer.pixel_toggle]
    congr 1
    apply decide_eq_decide.2
    constructor
    · rintro ⟨rfl, rfl, h1, h2⟩; exact ⟨rfl, rfl, h1, h2, h.1⟩
    · rintro ⟨rfl, rfl, h1, h2, -⟩; exact ⟨rfl, rfl, h1, h2⟩
  · next h =>
    have : ¬(u = x0 + c ∧ v = y ∧ u < fbWidth ∧ v < fbHeight ∧ b.getLsbD (7 - c) = true) := by
      rintro ⟨rfl, rfl, h1, h2, h3⟩; exact h ⟨h3, h1, h2⟩
    simp [this]

/-- All one sprite bit does to the collision bit (R214). -/
theorem drawBit_collision (b : Byte) (x0 y : Nat) (canvas : Canvas) (c : Nat) :
    (drawBit b x0 y canvas c).2 =
      (canvas.2 || decide (b.getLsbD (7 - c) = true ∧ x0 + c < fbWidth ∧ y < fbHeight ∧
        Framebuffer.pixel canvas.1 (x0 + c) y = true)) := by
  unfold drawBit
  split
  · next h => simp [h.1, h.2.1, h.2.2]
  · next h =>
    have : ¬(b.getLsbD (7 - c) = true ∧ x0 + c < fbWidth ∧ y < fbHeight ∧
        Framebuffer.pixel canvas.1 (x0 + c) y = true) := fun e => h ⟨e.1, e.2.1, e.2.2.1⟩
    simp [this]

end Sys2Proof.Machine
end

