-- ==== Sys2Proof/Laws/Ops.lean ====
section
/-! SUPPORT. One lemma for each shared operation that says once everything it can do: the stack, fault entry, the ends of
an instruction, the commands. -/

namespace Sys2Proof.Machine

open Sys2Proof.Config

section

variable (s : State)

/-- All a push does (R26): on a full stack nothing; else STACK[SP] takes the masked address and SP goes up by one. -/
theorem State.push?_cases (a : Nat) :
    (s.sp.val = 16 ∧ s.push? a = none) ∨
    (∃ h : s.sp.val < 16, s.push? a =
      some { s with stack := s.stack.set s.sp.val (mask12 a) h, sp := ⟨s.sp.val + 1, Nat.succ_lt_succ h⟩ }) := by
  by_cases h : s.sp.val < 16
  · exact .inr ⟨h, by simp [State.push?, stackDepth, h]⟩
  · exact .inl ⟨by have := s.sp.isLt; omega, by simp [State.push?, stackDepth, h]⟩

/-- All a pop does (R26): on an empty stack nothing; else SP goes down by one and STACK[SP] is the answer. -/
theorem State.pop?_cases :
    (s.sp.val = 0 ∧ s.pop? = none) ∨
    (∃ h : s.sp.val - 1 < 16, s.sp.val ≠ 0 ∧
      s.pop? = some (s.stack[s.sp.val - 1], { s with sp := ⟨s.sp.val - 1, Nat.lt_succ_of_lt h⟩ })) := by
  by_cases h : s.sp.val = 0
  · exact .inl ⟨h, by simp [State.pop?, h]⟩
  · exact .inr ⟨by have := s.sp.isLt; omega, h, by simp [State.pop?, h]⟩

/-- All fault entry does (R256): CTRL and the result are written, and the answer is a next state. -/
theorem raiseFault_eq (code : FaultCode) (word : Option Word) :
    raiseFault code word s =
      .next { s with
        ctrl := ⟨true, code, s.pc, word.getD 0, word.isSome, s.ctrl.loaded, s.ctrl.started⟩
        ports := { s.ports with result := .fault code } } := rfl

/-- All the sequential end does (R117, R120). -/
theorem advance_eq :
    advance s = .next { s with pc := mask12 s.npc, ports := { s.ports with result := .progress } } := rfl

/-- All the jumping end does (R120). -/
theorem jumpTo_eq (t : Nat) :
    jumpTo t s = .next { s with pc := mask12 t, ports := { s.ports with result := .progress } } := rfl

/-- All the skipping end does (R120). -/
theorem skipIf_eq (c : Bool) :
    skipIf c s = .next { s with
      pc := mask12 (if c then s.npc + 2 else s.npc), ports := { s.ports with result := .progress } } := rfl

/-- The skipping end by its condition: 2 or 4 past the instruction's own address, masked (R120, R121). -/
theorem skip_target (c : Bool) :
    (mask12 (if c then s.npc + 2 else s.npc)).toNat = (s.pc.toNat + if c then 4 else 2) % 4096 := by
  rw [mask12_toNat]; cases c <;> simp [State.npc]

/-- The sequential target. -/
theorem npc_target : (mask12 s.npc).toNat = (s.pc.toNat + 2) % 4096 := by
  rw [mask12_toNat]; simp [State.npc]

/-- All `setResultAndFlag` leaves alone. -/
theorem State.setResultAndFlag_eq (x : Reg) (p : Byte × Bool) :
    s.setResultAndFlag x p = { s with v := (s.v.set x p.1).set regF (if p.2 then 1 else 0) } := rfl

/-- All an INVALID word does (R118). -/
theorem invalidWord_cases (word : Word) :
    (s.cfg.invalidOpcodePolicy = .fatal ∧ invalidWord word s = raiseFault .invalidOpcode (some word) s) ∨
    (s.cfg.invalidOpcodePolicy = .ignore ∧ invalidWord word s = advance s) := by
  cases h : s.cfg.invalidOpcodePolicy
  · exact .inl ⟨rfl, by simp [invalidWord, h]⟩
  · exact .inr ⟨rfl, by simp [invalidWord, h]⟩

/-- All the cycle of an EXEC in RUN can do (R126): the fetch faults, the word is INVALID, or an instruction runs. -/
theorem cycle_cases :
    (s.pcOutOfBounds = true ∧ cycle s = raiseFault .pcOutOfBounds none s) ∨
    (s.pcOutOfBounds = false ∧ ∃ why, decode s.fetchWord = .invalid why ∧ cycle s = invalidWord s.fetchWord s) ∨
    (s.pcOutOfBounds = false ∧ ∃ i, decode s.fetchWord = .instr i ∧ cycle s = exec i s) := by
  cases h : s.pcOutOfBounds
  · cases hd : decode s.fetchWord with
    | instr i => exact .inr (.inr ⟨rfl, i, rfl, by simp [cycle, h, hd]⟩)
    | invalid why => exact .inr (.inl ⟨rfl, why, rfl, by simp [cycle, h, hd]⟩)
  · exact .inl ⟨rfl, by simp [cycle, h]⟩

/-- All EXEC can do (R112, R124): nothing in HALTED, the cycle in RUN. -/
theorem execCommand_cases (k : BitVec 16) (r : Byte) :
    (s.ctrl.halted = true ∧ execCommand k r s = .next (s.setResult (.fault s.ctrl.faultCode))) ∨
    (s.ctrl.halted = false ∧ execCommand k r s = cycle (s.sample k r).markStarted) := by
  cases h : s.ctrl.halted
  · exact .inr ⟨rfl, by simp [execCommand, h]⟩
  · exact .inl ⟨rfl, by simp [execCommand, h]⟩

/-- All LOAD can do (R292). -/
theorem loadCommand_cases (bytes : List Byte) :
    (s.loadRefused = true ∧ loadCommand bytes s = s.setResult .loadRefused) ∨
    (s.loadRefused = false ∧ 3584 < bytes.length ∧ loadCommand bytes s = s.setResult .programTooLarge) ∨
    (s.loadRefused = false ∧ bytes.length ≤ 3584 ∧ loadCommand bytes s = (s.loadImage bytes).setResult .loadOk) := by
  cases h : s.loadRefused
  · by_cases hl : 3584 < bytes.length
    · exact .inr (.inl ⟨rfl, hl, by simp [loadCommand, h, maxProgramBytes, hl]⟩)
    · exact .inr (.inr ⟨rfl, Nat.not_lt.1 hl, by simp [loadCommand, h, maxProgramBytes, hl]⟩)
  · exact .inl ⟨rfl, by simp [loadCommand, h]⟩

/-- All TICK can do (R260, R263). -/
theorem tickCommand_cases :
    (s.ctrl.halted = true ∧ tickCommand s = s.setResult .none) ∨
    (s.ctrl.halted = false ∧
      tickCommand s = ((s.setDt (countDown s.dt)).setSt (countDown s.st)).setResult .none) := by
  cases h : s.ctrl.halted
  · exact .inr ⟨rfl, by simp [tickCommand, h]⟩
  · exact .inl ⟨rfl, by simp [tickCommand, h]⟩

/-- A timer counts down by one and stops at 0 (R260). -/
theorem countDown_toNat (t : Byte) : (countDown t).toNat = t.toNat - 1 := by
  unfold countDown
  split
  · rw [BitVec.toNat_ofNat]; have := t.isLt; omega
  · omega

end

section

/-- ADD8 (R161). -/
theorem add8_spec (a b : Byte) :
    (add8 a b).1.toNat = (a.toNat + b.toNat) % 256 ∧ ((add8 a b).2 = true ↔ 256 ≤ a.toNat + b.toNat) := by
  simp only [add8, BitVec.toNat_ofNat, decide_eq_true_eq, and_true]; omega

/-- SUB8 (R162). -/
theorem sub8_spec (a b : Byte) :
    (sub8 a b).1.toNat = (a.toNat + 256 - b.toNat) % 256 ∧ ((sub8 a b).2 = true ↔ b.toNat ≤ a.toNat) := by
  simp only [sub8, BitVec.toNat_ofNat, decide_eq_true_eq, and_true]; omega

/-- SHR8 (R164). -/
theorem shr8_spec (a : Byte) : (shr8 a).1.toNat = a.toNat / 2 ∧ (shr8 a).2 = a.getLsbD 0 := by
  simp only [shr8, BitVec.toNat_ofNat, and_true]; have := a.isLt; omega

/-- SHL8 (R164). -/
theorem shl8_spec (a : Byte) : (shl8 a).1.toNat = a.toNat * 2 % 256 ∧ (shl8 a).2 = a.getLsbD 7 := by
  simp only [shl8, BitVec.toNat_ofNat, and_true]; omega

/-- The digits of a byte (R193). -/
theorem digits_toNat (v : Byte) :
    (hundreds v).toNat = v.toNat / 100 ∧ (tens v).toNat = v.toNat / 10 % 10 ∧ (ones v).toNat = v.toNat % 10 := by
  simp only [hundreds, tens, ones, BitVec.toNat_ofNat]
  have := v.isLt
  omega

/-- The registers of FX55 and FX65 are V0..Vx (R194, R195). -/
theorem mem_regsUpTo (x k : Reg) : k ∈ regsUpTo x ↔ k ≤ x := by
  revert x k; decide

end

end Sys2Proof.Machine
end

