-- ==== Sys2Proof/Tests/Slice0.lean ====
section
/-! SUPPORT. The model's own tests: the checks of WellFormed, the decoder on words written out from the spec, one step at
a time from the vectors of 95_test_vectors.md (each test names its vector), and for every statement with hypotheses a
witness that meets them. -/

namespace Sys2Proof.Tests

open Sys2Proof Sys2Proof.Machine Sys2Proof.Config

/-! ## WellFormed: one ill-formed term for each check, and the bound itself accepted -/

theorem test_jp_address_refused : (Instr.jp 4096).wellFormed = false := by decide
theorem test_call_address_refused : (Instr.call 4096).wellFormed = false := by decide
theorem test_ldI_address_refused : (Instr.ldI 4096).wellFormed = false := by decide
theorem test_jpV0_address_refused : (Instr.jpV0 4096).wellFormed = false := by decide
theorem test_drw_rows_refused : (Instr.drw 0 0 16).wellFormed = false := by decide
theorem test_bounds_accepted :
    (Instr.jp 0xFFF).wellFormed = true ∧ (Instr.call 0xFFF).wellFormed = true ∧ (Instr.ldI 0xFFF).wellFormed = true ∧
      (Instr.jpV0 0xFFF).wellFormed = true ∧ (Instr.drw 15 15 15).wellFormed = true := by decide

/-! ## Decoding: words written out from the patterns of R85 -/

theorem test_decode_cls : decode 0b0000000011100000 = .instr .cls := by decide
theorem test_decode_ret : decode 0b0000000011101110 = .instr .ret := by decide
theorem test_decode_jp : decode 0b0001_0010_0011_0100 = .instr (.jp 0x234) := by decide
theorem test_decode_call : decode 0b0010_0011_0000_0001 = .instr (.call 0x301) := by decide
theorem test_decode_seImm : decode 0b0011_1111_0000_0001 = .instr (.seImm 15 1) := by decide
theorem test_decode_sneImm : decode 0b0100_0011_0010_1010 = .instr (.sneImm 3 0x2A) := by decide
theorem test_decode_seReg : decode 0b0101_0001_0010_0000 = .instr (.seReg 1 2) := by decide
theorem test_decode_ldImm : decode 0b0110_1010_1111_1111 = .instr (.ldImm 10 0xFF) := by decide
theorem test_decode_addImm : decode 0b0111_0010_0000_0001 = .instr (.addImm 2 1) := by decide
theorem test_decode_ldReg : decode 0b1000_0010_1111_0000 = .instr (.ldReg 2 15) := by decide
theorem test_decode_orReg : decode 0b1000_0001_0010_0001 = .instr (.orReg 1 2) := by decide
theorem test_decode_andReg : decode 0b1000_0001_0010_0010 = .instr (.andReg 1 2) := by decide
theorem test_decode_xorReg : decode 0b1000_0001_0010_0011 = .instr (.xorReg 1 2) := by decide
theorem test_decode_addReg : decode 0b1000_0001_0010_0100 = .instr (.addReg 1 2) := by decide
theorem test_decode_sub : decode 0b1000_0001_0010_0101 = .instr (.sub 1 2) := by decide
theorem test_decode_shr : decode 0b1000_0001_0010_0110 = .instr (.shr 1 2) := by decide
theorem test_decode_subn : decode 0b1000_0001_0010_0111 = .instr (.subn 1 2) := by decide
theorem test_decode_shl : decode 0b1000_0001_0010_1110 = .instr (.shl 1 2) := by decide
theorem test_decode_sneReg : decode 0b1001_0001_0010_0000 = .instr (.sneReg 1 2) := by decide
theorem test_decode_ldI : decode 0b1010_0010_1111_0000 = .instr (.ldI 0x2F0) := by decide
theorem test_decode_jpV0 : decode 0b1011_1111_1000_0000 = .instr (.jpV0 0xF80) := by decide
theorem test_decode_rnd : decode 0b1100_0011_0000_1111 = .instr (.rnd 3 0x0F) := by decide
theorem test_decode_drw : decode 0b1101_0001_0010_0101 = .instr (.drw 1 2 5) := by decide
theorem test_decode_skp : decode 0b1110_0100_1001_1110 = .instr (.skp 4) := by decide
theorem test_decode_sknp : decode 0b1110_0100_1010_0001 = .instr (.sknp 4) := by decide
theorem test_decode_ldVxDt : decode 0b1111_0101_0000_0111 = .instr (.ldVxDt 5) := by decide
theorem test_decode_ldVxK : decode 0b1111_0011_0000_1010 = .instr (.ldVxK 3) := by decide
theorem test_decode_ldDt : decode 0b1111_0101_0001_0101 = .instr (.ldDt 5) := by decide
theorem test_decode_ldSt : decode 0b1111_0110_0001_1000 = .instr (.ldSt 6) := by decide
theorem test_decode_addI : decode 0b1111_0010_0001_1110 = .instr (.addI 2) := by decide
theorem test_decode_ldF : decode 0b1111_0001_0010_1001 = .instr (.ldF 1) := by decide
theorem test_decode_ldB : decode 0b1111_0001_0011_0011 = .instr (.ldB 1) := by decide
theorem test_decode_ldMemVx : decode 0b1111_0010_0101_0101 = .instr (.ldMemVx 2) := by decide
theorem test_decode_ldVxMem : decode 0b1111_0100_0110_0101 = .instr (.ldVxMem 4) := by decide

/-- The INVALID words of the decode table of section 2.1. -/
theorem test_invalid_words :
    ∀ w ∈ ([0x00E1, 0x00EF, 0x0000, 0x0123, 0x0FFF, 0x5121, 0x512F, 0x8008, 0x800D, 0x800F, 0x9121, 0xE09F, 0xE000,
      0xE0A0, 0xF000, 0xF0FF, 0xF030, 0xF075] : List Word), ∀ i, decode w ≠ .instr i := by
  simp only [List.forall_mem_cons]
  refine ⟨?_, ?_, ?_, ?_, ?_, ?_, ?_, ?_, ?_, ?_, ?_, ?_, ?_, ?_, ?_, ?_, ?_, ?_, by simp⟩ <;> exact nofun

/-- Zero rows are a legal DRW (R215). -/
theorem test_decode_drw_no_rows : decode 0xD000 = .instr (.drw 0 0 0) := by decide

/-- No two rows of the opcode table match one word. -/
theorem test_table_rows_disjoint :
    opcodeTable.Pairwise fun r q => r.mtch &&& (r.mask &&& q.mask) ≠ q.mtch &&& (r.mask &&& q.mask) := by decide

theorem test_table_word : decodeTableWord 16 0x8AB4 = some (.addReg 0xA 0xB) := by decide
theorem test_short_bytes_refused : decodeBytes [0x60] = (.invalid .truncated, [0x60]) := by decide

/-! ## Small states, and one step from them -/

/-- The outcome is a next state with the property. -/
def after (o : Host.Outcome State Fault Refusal) (p : State → Bool) : Bool :=
  match o with
  | .next t => p t
  | .fault _ => false
  | .refused _ => false

theorem next_of_after {o : Host.Outcome State Fault Refusal} {p : State → Bool} (h : after o p = true) :
    ∃ t, o = .next t ∧ p t = true := by
  cases o with
  | next t => exact ⟨t, rfl, h⟩
  | fault f => cases f
  | refused r => cases h

/-- Bytes in memory. -/
def put (s : State) (a : Nat) (bytes : List Byte) : State := s.setMem (Memory.storeBytes s.cfg.font s.mem a bytes)

/-- The host's script. -/
def given (s : State) (script : List Command) : State := s.setPorts { s.ports with script := script }

/-- One EXEC of the two bytes, put where PC points. -/
def execBytes (s : State) (hi lo : Byte) (keys : BitVec 16 := 0) (rnd : Byte := 0) : Host.Outcome State Fault Refusal :=
  step (given (put s s.pc.toNat [hi, lo]) [.exec keys rnd])

/-- The state after RESET with some registers set. -/
def regs (vs : List (Reg × Byte)) : State := vs.foldl (fun s rb => s.setV rb.1 rb.2) State.reset

/-- The stack with `n` entries in use, all holding 0x204. -/
def stacked (s : State) (n : Fin 17) : State := { s with sp := n, stack := Vector.replicate 16 0x204 }

/-- The lit pixels among the first `w` columns and `h` rows from (x0, y0). -/
def lit (s : State) (x0 y0 w h : Nat) : List (Nat × Nat) :=
  ((List.range h).flatMap fun v => (List.range w).map fun u => (x0 + u, y0 + v)).filter
    fun p => Framebuffer.pixel s.fb p.1 p.2

/-- A halted core, as CYC-5 leaves it. -/
def halted : State := State.reset.setCtrl ⟨true, .invalidOpcode, 0x200, 0, true, false, true⟩

/-! ## The cycle and the commands -/

theorem test_cyc1_ld_imm : after (execBytes State.reset 0x60 0x05)
    (fun t => t.getV 0 == 5 && t.pc == 0x202 && t.ctrl.started && t.ports.result == .progress) = true := by decide
theorem test_cyc2_pc_wraps : after (execBytes (State.reset.setPc 0xFFE) 0x61 0x01)
    (fun t => t.getV 1 == 1 && t.pc == 0) = true := by decide
theorem test_cyc3_fetch_fault : after (step (given (State.reset.setPc 0xFFF) [.exec 0 0]))
    (fun t => t.ctrl == ⟨true, .pcOutOfBounds, 0xFFF, 0, false, false, true⟩ && t.pc == 0xFFF) = true := by decide
theorem test_cyc5_invalid_fatal : after (execBytes State.reset 0 0)
    (fun t => t.ctrl == ⟨true, .invalidOpcode, 0x200, 0, true, false, true⟩ && t.pc == 0x200 &&
      t.ports.result == .fault .invalidOpcode) = true := by decide
theorem test_cyc6_invalid_ignored :
    after (execBytes { State.reset with cfg := { defaultParams with invalidOpcodePolicy := .ignore } } 0 0)
      (fun t => t.pc == 0x202 && !t.ctrl.halted && t.ports.result == .progress) = true := by decide
theorem test_cyc7_halted_exec : after (step (given halted [.exec 0 0]))
    (fun t => t.ctrl == halted.ctrl && t.pc == 0x200 && t.ports.result == .fault .invalidOpcode) = true := by decide
theorem test_cyc8_halted_tick : after (step (given (halted.setDt 3) [.tick])) (fun t => t.dt == 3) = true := by decide
theorem test_cyc9_reset_command : after (step (given (halted.setV 3 7) [.reset])) (fun t => t == State.reset) = true := by
  decide
theorem test_fault_codes : (FaultCode.pcOutOfBounds.toBits, FaultCode.stackUnderflow.toBits,
    FaultCode.stackOverflow.toBits, FaultCode.invalidOpcode.toBits, CommandResult.programTooLarge.code) =
    (2, 3, 4, 5, some 1) := by decide
theorem test_tmr7_tick : after (step (given ((State.reset.setDt 5).setSt 1) [.tick]))
    (fun t => t.dt == 4 && t.st == 0) = true := by decide
theorem test_tmr3_tick_saturates : after (step (given State.reset [.tick])) (fun t => t.dt == 0 && t.st == 0) = true := by
  decide
theorem test_rst2_load : after (step (given State.reset [.load [0x12, 0x00]]))
    (fun t => t.memRead 0x200 == 0x12 && t.memRead 0x201 == 0 && t.ctrl.loaded && t.ports.result == .loadOk) = true := by
  decide
theorem test_rst3_load_refused : after (step (given (State.reset.setCtrl { Ctrl.reset with loaded := true }) [.load [1]]))
    (fun t => t.memRead 0x200 == 0 && t.ports.result == .loadRefused) = true := by decide
theorem test_rst1_glyphs : (List.range 5).map (fun k => State.reset.memRead (0x069 + k)) = [0xF0, 0x80, 0xF0, 0x10, 0xF0] ∧
    State.reset.memRead 0x04F = 0 ∧ State.reset.memRead 0x0A0 = 0 := by decide
theorem test_power_on_step : after (step State.reset)
    (fun t => t.ports.result == .fault .invalidOpcode && t.ports.draws == 1) = true := by decide
theorem test_withFetchWord : after (step (State.reset.withFetchWord 16 0x1234)) (fun t => t.pc == 0x234) = true := by
  decide

/-! ## Control flow -/

theorem test_cf1_cls : after (execBytes { State.reset with fb := State.reset.fb.toggle 3 4 } 0x00 0xE0)
    (fun t => t.fb == State.reset.fb && t.pc == 0x202) = true := by decide
theorem test_cf2_ret : after (execBytes ((stacked State.reset 1).setPc 0x300) 0x00 0xEE)
    (fun t => t.sp == 0 && t.pc == 0x204 && t.stack[0] == 0x204) = true := by decide
theorem test_cf3_ret_underflow : after (execBytes (State.reset.setPc 0x300) 0x00 0xEE)
    (fun t => t.ctrl == ⟨true, .stackUnderflow, 0x300, 0x00EE, true, false, true⟩ && t.pc == 0x300) = true := by decide
theorem test_cf4_jp : after (execBytes State.reset 0x12 0x34) (fun t => t.pc == 0x234) = true := by decide
theorem test_cf8_call : after (execBytes (State.reset.setPc 0xFFE) 0x24 0x00)
    (fun t => t.stack[0] == 0 && t.sp == 1 && t.pc == 0x400) = true := by decide
theorem test_cf9_call_overflow : after (execBytes ((stacked State.reset 16).setPc 0x250) 0x23 0x00)
    (fun t => t.ctrl == ⟨true, .stackOverflow, 0x250, 0x2300, true, false, true⟩ && t.pc == 0x250 && t.sp == 16 &&
      t.stack == Vector.replicate 16 0x204) = true := by decide
theorem test_cf10_se_imm : after (execBytes (regs [(3, 0x2A)]) 0x33 0x2A) (fun t => t.pc == 0x204) = true := by decide
theorem test_cf12_skip_wraps : after (execBytes (State.reset.setPc 0xFFC) 0x30 0x00) (fun t => t.pc == 0) = true := by
  decide
theorem test_cf14_sne_imm : after (execBytes (regs [(3, 0x2A)]) 0x43 0x2A) (fun t => t.pc == 0x202) = true := by decide
theorem test_cf17_se_reg : after (execBytes (regs [(1, 7), (2, 7)]) 0x51 0x20) (fun t => t.pc == 0x204) = true := by decide
theorem test_cf20_sne_reg : after (execBytes (regs [(1, 7), (2, 8)]) 0x91 0x20) (fun t => t.pc == 0x204) = true := by decide
theorem test_cf23_jp_v0 : after (execBytes (regs [(0, 0x90)]) 0xBF 0x80) (fun t => t.pc == 0x010) = true := by decide
theorem test_cf25_jp_vx :
    after (execBytes { regs [(0, 0x10), (3, 0x20)] with cfg := { defaultParams with jumpOffsetUsesVx := true } } 0xB3 0x00)
      (fun t => t.pc == 0x320) = true := by decide

/-! ## Registers and flags -/

theorem test_alu2_add_imm : after (execBytes (regs [(2, 0xFF), (15, 7)]) 0x72 0x01)
    (fun t => t.getV 2 == 0 && t.getV 15 == 7) = true := by decide
theorem test_alu5_ld_reg : after (execBytes (regs [(1, 0x33)]) 0x80 0x10) (fun t => t.getV 0 == 0x33) = true := by decide
theorem test_alu6_or : after (execBytes (regs [(0, 0x0F), (1, 0xF0), (15, 0x55)]) 0x80 0x11)
    (fun t => t.getV 0 == 0xFF && t.getV 15 == 0x55) = true := by decide
theorem test_alu7_and : after (execBytes (regs [(0, 0x3C), (1, 0x0F), (15, 0x55)]) 0x80 0x12)
    (fun t => t.getV 0 == 0x0C && t.getV 15 == 0x55) = true := by decide
theorem test_alu8_xor : after (execBytes (regs [(0, 0x3C), (1, 0x0F), (15, 0x55)]) 0x80 0x13)
    (fun t => t.getV 0 == 0x33 && t.getV 15 == 0x55) = true := by decide
theorem test_alu11_add_carry : after (execBytes (regs [(0, 0x80), (1, 0x80)]) 0x80 0x14)
    (fun t => t.getV 0 == 0 && t.getV 15 == 1) = true := by decide
theorem test_alu13_add_reads_old_vf : after (execBytes (regs [(0, 0x10), (15, 1)]) 0x80 0xF4)
    (fun t => t.getV 0 == 0x11 && t.getV 15 == 0) = true := by decide
theorem test_alu16_sub_borrow : after (execBytes (regs [(0, 0x00), (1, 0xFF)]) 0x80 0x15)
    (fun t => t.getV 0 == 1 && t.getV 15 == 0) = true := by decide
theorem test_alu17_sub_into_vf : after (execBytes (regs [(15, 5), (1, 7)]) 0x8F 0x15) (fun t => t.getV 15 == 0) = true := by
  decide
theorem test_alu19_subn : after (execBytes (regs [(0, 5), (1, 7)]) 0x80 0x17)
    (fun t => t.getV 0 == 2 && t.getV 15 == 1) = true := by decide
theorem test_alu26_shr : after (execBytes (regs [(0, 4), (1, 0xFF)]) 0x80 0x16)
    (fun t => t.getV 0 == 2 && t.getV 15 == 0) = true := by decide
theorem test_alu27_shr_vy :
    after (execBytes { regs [(0, 4), (1, 0xFF)] with cfg := { defaultParams with shiftUsesVy := true } } 0x80 0x16)
      (fun t => t.getV 0 == 0x7F && t.getV 15 == 1) = true := by decide
theorem test_alu29_shl : after (execBytes (regs [(0, 0x81)]) 0x80 0x0E)
    (fun t => t.getV 0 == 2 && t.getV 15 == 1) = true := by decide
theorem test_alu32_shl_into_vf : after (execBytes (regs [(15, 0x7F)]) 0x8F 0x0E) (fun t => t.getV 15 == 0) = true := by
  decide
theorem test_alu34_rnd : after (execBytes State.reset 0xC3 0x0F 0 0xB7) (fun t => t.getV 3 == 7) = true := by decide

/-! ## Memory and index -/

theorem test_mem1_ld_i : after (execBytes State.reset 0xA2 0xF0) (fun t => t.i == 0x2F0) = true := by decide
theorem test_mem4_add_i : after (execBytes ((regs [(2, 1), (15, 0x77)]).setI 0xFFF) 0xF2 0x1E)
    (fun t => t.i == 0 && t.getV 15 == 0x77) = true := by decide
theorem test_mem8_ld_f : after (execBytes (regs [(0, 0x1A)]) 0xF0 0x29) (fun t => t.i == 0x082) = true := by decide
theorem test_mem13_bcd : after (execBytes ((regs [(1, 0x7B)]).setI 0xFFE) 0xF1 0x33)
    (fun t => t.memRead 0xFFE == 1 && t.memRead 0xFFF == 2 && t.memRead 0 == 3) = true := by decide
theorem test_mem15_bcd_font : after (execBytes ((regs [(1, 0xC8)]).setI 0x04F) 0xF1 0x33)
    (fun t => t.memRead 0x04F == 2 && t.memRead 0x050 == 0xF0 && t.memRead 0x051 == 0x90) = true := by decide
theorem test_mem18_store_moves_i :
    after (execBytes ({ regs [(0, 1), (1, 2), (2, 3)] with
        cfg := { defaultParams with loadStoreIncrementsI := true } }.setI 0x400) 0xF2 0x55)
      (fun t => t.memRead 0x400 == 1 && t.memRead 0x402 == 3 && t.memRead 0x403 == 0 && t.i == 0x403) = true := by decide
theorem test_mem20_store_wraps : after (execBytes ((regs [(0, 0xAA), (1, 0xBB)]).setI 0xFFF) 0xF1 0x55)
    (fun t => t.memRead 0xFFF == 0xAA && t.memRead 0 == 0xBB && t.i == 0xFFF) = true := by decide
theorem test_mem23_load : after (execBytes (State.reset.setI 0x069) 0xF4 0x65)
    (fun t => t.getV 0 == 0xF0 && t.getV 1 == 0x80 && t.getV 3 == 0x10 && t.getV 4 == 0xF0 && t.getV 5 == 0) = true := by
  decide
theorem test_mem26_load_moves_i :
    after (execBytes (put ({ State.reset with cfg := { defaultParams with loadStoreIncrementsI := true } }.setI 0x400)
        0x400 [0xAA, 0xBB]) 0xF1 0x65)
      (fun t => t.getV 0 == 0xAA && t.getV 1 == 0xBB && t.i == 0x402) = true := by decide

/-! ## Display -/

theorem test_drw1_glyph : after (execBytes (State.reset.setI 0x069) 0xD1 0x15)
    (fun t => lit t 0 0 6 6 == [(0, 0), (1, 0), (2, 0), (3, 0), (0, 1), (0, 2), (1, 2), (2, 2), (3, 2), (3, 3), (0, 4),
      (1, 4), (2, 4), (3, 4)] && t.getV 15 == 0) = true := by decide
theorem test_drw5_collision :
    after (execBytes (put ({ State.reset with fb := State.reset.fb.toggle 0 0 }.setI 0x300) 0x300 [0xC0]) 0xD0 0x11)
      (fun t => lit t 0 0 4 2 == [(1, 0)] && t.getV 15 == 1) = true := by decide
theorem test_drw4_clipped : after (execBytes (put ((regs [(0, 0x3E)]).setI 0x300) 0x300 [0xFF]) 0xD0 0x11)
    (fun t => lit t 60 0 4 2 == [(62, 0), (63, 0)] && lit t 0 0 6 2 == [] && t.getV 15 == 0) = true := by decide

/-! ## Keys and timers -/

theorem test_key3_skp : after (execBytes (regs [(4, 0x1A)]) 0xE4 0x9E 0x0400) (fun t => t.pc == 0x204) = true := by decide
theorem test_key5_sknp : after (execBytes (regs [(4, 0x0A)]) 0xE4 0xA1 0x0408) (fun t => t.pc == 0x202) = true := by decide
theorem test_key6_waits : after (execBytes (State.reset.setPc 0x210) 0xF3 0x0A)
    (fun t => t.pc == 0x210 && t.ports.result == .noProgress && t.ctrl.started) = true := by decide
theorem test_key7_lowest : after (execBytes (State.reset.setPc 0x210) 0xF3 0x0A 0x1080)
    (fun t => t.getV 3 == 7 && t.pc == 0x212) = true := by decide
theorem test_tmr1_ld_dt : after (execBytes (regs [(5, 0x3C)]) 0xF5 0x15) (fun t => t.dt == 0x3C) = true := by decide
theorem test_tmr2_ld_vx_dt : after (execBytes (State.reset.setDt 0x3C) 0xF5 0x07)
    (fun t => t.getV 5 == 0x3C && t.dt == 0x3C) = true := by decide
theorem test_tmr4_ld_st : after (execBytes (regs [(6, 1)]) 0xF6 0x18) (fun t => t.st == 1 && t.soundOn) = true := by decide

/-! ## Witnesses: the hypotheses of each statement can be met, clause by clause -/

/-- A state in RUN with one byte pair at PC and one EXEC to run. -/
def ready (s : State) (hi lo : Byte) (keys : BitVec 16 := 0) (rnd : Byte := 0) : State :=
  given (put s s.pc.toNat [hi, lo]) [.exec keys rnd]

theorem witness_DecodeOfEncode : (Instr.drw 15 15 15).wellFormed = true ∧ (Instr.call 0xFFF).wellFormed = true := by decide
theorem witness_DecodedWord : decode 0xDFFF = .instr (.drw 15 15 15) := by decide
theorem witness_DecodeMatches :
    (∃ row ∈ opcodeTable, (0x1FFF : Word).toNat &&& row.mask = row.mtch) ∧
    (∀ row ∈ opcodeTable, (0x8008 : Word).toNat &&& row.mask ≠ row.mtch) := by decide

theorem witness_StepRuns_script : ∃ (s : State) (i : Instr) (keys : BitVec 16) (rnd : Byte) (rest : List Command),
    s.ctrl.halted = false ∧ s.pc.toNat + 1 ≤ 0xFFF ∧
    decodeBytes [s.memRead s.pc.toNat, s.memRead (s.pc.toNat + 1)] = (.instr i, []) ∧
    s.ports.script = .exec keys rnd :: rest :=
  ⟨ready (State.reset.setPc 0xFFE) 0x61 0x01, .ldImm 1 1, 0, 0, [], by decide⟩

theorem witness_StepRuns_free : ∃ (s : State) (i : Instr), s.ctrl.halted = false ∧ s.pc.toNat + 1 ≤ 0xFFF ∧
    decodeBytes [s.memRead s.pc.toNat, s.memRead (s.pc.toNat + 1)] = (.instr i, []) ∧ s.ports.script = [] :=
  ⟨put State.reset 0x200 [0x61, 0x01], .ldImm 1 1, by decide⟩

theorem witness_Fetch_top : ∃ (s : State) (keys : BitVec 16) (rnd : Byte) (rest : List Command),
    s.ports.script = .exec keys rnd :: rest ∧ s.ctrl.halted = false ∧ s.pc.toNat < 4096 ∧ s.pc.toNat = 0xFFF :=
  ⟨given (State.reset.setPc 0xFFF) [.exec 0 0], 0, 0, [], by decide⟩

theorem witness_Fetch_below : ∃ (s : State) (keys : BitVec 16) (rnd : Byte) (rest : List Command),
    s.ports.script = .exec keys rnd :: rest ∧ s.ctrl.halted = false ∧ s.pc.toNat < 4096 ∧ s.pc.toNat ≠ 0xFFF :=
  ⟨given (State.reset.setPc 0xFFE) [.exec 0 0], 0, 0, [], by decide⟩

/-- An INVALID word at PC, under either policy. -/
def invalidState (p : InvalidPolicy) : State :=
  ready { State.reset with cfg := { defaultParams with invalidOpcodePolicy := p } } 0x51 0x21

theorem witness_InvalidWord : ∀ p ∈ [InvalidPolicy.fatal, .ignore], ∃ (keys : BitVec 16) (rnd : Byte)
    (rest : List Command) (why : InvalidWord), (invalidState p).ports.script = .exec keys rnd :: rest ∧
    (invalidState p).ctrl.halted = false ∧ (invalidState p).pc.toNat + 1 ≤ 0xFFF ∧
    decode (wordOfBytes ((invalidState p).memRead (invalidState p).pc.toNat)
      ((invalidState p).memRead ((invalidState p).pc.toNat + 1))) = .invalid why ∧
    (invalidState p).cfg.invalidOpcodePolicy = p := by
  simp only [List.forall_mem_cons]
  exact ⟨⟨0, 0, [], .class5, by decide⟩, ⟨0, 0, [], .class5, by decide⟩, nofun⟩

theorem witness_ExecFaults :
    faultOf (ready (State.reset.setPc 0xFFF) 0 0) = some (.pcOutOfBounds, none) ∧
    faultOf (ready State.reset 0x51 0x21) = some (.invalidOpcode, some 0x5121) ∧
    faultOf (ready State.reset 0x00 0xEE) = some (.stackUnderflow, some 0x00EE) ∧
    faultOf (ready (stacked State.reset 16) 0x2F 0xFF) = some (.stackOverflow, some 0x2FFF) ∧
    faultOf (ready (stacked State.reset 1) 0x00 0xEE) = none ∧
    faultOf (ready (stacked State.reset 15) 0x23 0x00) = none ∧ faultOf (invalidState .ignore) = none ∧
    (ready State.reset 0x00 0xEE).ports.script = [.exec 0 0] ∧ (ready State.reset 0x00 0xEE).ctrl.halted = false := by
  decide

theorem witness_HaltedExec : ∃ (s : State) (keys : BitVec 16) (rnd : Byte) (rest : List Command),
    s.ports.script = .exec keys rnd :: rest ∧ s.ctrl.halted = true := ⟨given halted [.exec 3 4, .tick], 3, 4, [.tick], by decide⟩

theorem witness_OnlyReset : ∃ s t : State, s.ctrl.halted = true ∧ step s = .next t ∧
    ∀ rest, s.ports.script ≠ .reset :: rest := by
  obtain ⟨t, ht, _⟩ := next_of_after test_cyc8_halted_tick
  exact ⟨given (halted.setDt 3) [.tick], t, by decide, ht, nofun⟩

theorem witness_Tick : (∃ (s : State) (rest : List Command), s.ports.script = .tick :: rest ∧ s.ctrl.halted = false) ∧
    (∃ (s : State) (rest : List Command), s.ports.script = .tick :: rest ∧ s.ctrl.halted = true) :=
  ⟨⟨given State.reset [.tick], [], by decide⟩, ⟨given halted [.tick], [], by decide⟩⟩

theorem witness_Load_refused : (∃ (s : State) (bytes : List Byte) (rest : List Command),
      s.ports.script = .load bytes :: rest ∧ s.ctrl.halted = true) ∧
    (∃ (s : State) (bytes : List Byte) (rest : List Command),
      s.ports.script = .load bytes :: rest ∧ s.ctrl.started = true ∧ s.ctrl.loaded = false) ∧
    (∃ (s : State) (bytes : List Byte) (rest : List Command),
      s.ports.script = .load bytes :: rest ∧ s.ctrl.loaded = true ∧ s.ctrl.started = false) :=
  ⟨⟨given halted [.load []], [], [], by decide⟩,
    ⟨given (State.reset.setCtrl { Ctrl.reset with started := true }) [.load []], [], [], by decide⟩,
    ⟨given (State.reset.setCtrl { Ctrl.reset with loaded := true }) [.load []], [], [], by decide⟩⟩

/-- The boundary of E5: an image of 3584 bytes fits, one of 3585 does not. -/
theorem witness_Load_sizes : ∀ n, n = 3584 ∨ n = 3585 → ∃ (s : State) (bytes : List Byte) (rest : List Command),
    s.ports.script = .load bytes :: rest ∧ s.ctrl.halted = false ∧ s.ctrl.started = false ∧ s.ctrl.loaded = false ∧
    bytes.length = n := fun n _ =>
  ⟨given State.reset [.load (List.replicate n 1)], List.replicate n 1, [], rfl, rfl, rfl, rfl, List.length_replicate⟩

theorem witness_ResetCommand : ∃ (s : State) (rest : List Command), s.ports.script = .reset :: rest :=
  ⟨given halted [.reset, .tick], [.tick], by decide⟩

theorem witness_OnlyWaitForKey : (∃ (i : Instr) (s t : State), exec i s = .next t ∧ t.ports.result = .noProgress) ∧
    (∃ (i : Instr) (s t : State), exec i s = .next t ∧ t.ports.result ≠ .noProgress) :=
  ⟨⟨.ldVxK 0, State.reset, _, rfl, by decide⟩, ⟨.cls, State.reset, _, rfl, by decide⟩⟩

theorem witness_JumpToItself : ∃ (s : State) (keys : BitVec 16) (rnd : Byte) (rest : List Command),
    s.ports.script = .exec keys rnd :: rest ∧ s.ctrl.halted = false ∧ s.pc.toNat + 1 ≤ 0xFFF ∧
    decode (wordOfBytes (s.memRead s.pc.toNat) (s.memRead (s.pc.toNat + 1))) = .instr (.jp s.pc.toNat) :=
  ⟨ready (State.reset.setPc 0x240) 0x12 0x40, 0, 0, [], by decide⟩

/-- A state of some run that meets the invariant: memory, the stack and VF written. -/
def busy : State := (put ((stacked (regs [(15, 1)]) 3).setI 0xFFF) 0xFFF [0xAA]).setPc 0x300

theorem witness_EveryStepKeepsTheInvariant : ∃ s t : State, s.Inv ∧ step s = .next t := by
  have hs : after (step (given busy [.tick])) (fun _ => true) = true := by decide
  obtain ⟨t, ht, _⟩ := next_of_after hs
  refine ⟨given busy [.tick], t, ⟨⟨by decide, by decide, by decide⟩, by decide, ?_, ⟨by decide, by decide, by decide, by decide, by decide⟩⟩, ht⟩
  intro _
  decide

theorem witness_Instructions : ∃ (i : Instr) (s t : State) (c : Component), exec i s = .next t ∧ ¬ mayChange i s c :=
  ⟨.ldImm 3 1, State.reset, _, .v 4, rfl, by simp [mayChange, writesRegister]⟩

theorem witness_Keys : ∃ (i : Instr) (s t : State), (∀ x, i ≠ .skp x) ∧ (∀ x, i ≠ .sknp x) ∧ (∀ x, i ≠ .ldVxK x) ∧
    exec i s = .next t := ⟨.rnd 0 0xFF, State.reset, _, nofun, nofun, nofun, rfl⟩

theorem witness_Random : ∃ (i : Instr) (s t : State), (∀ x nn, i ≠ .rnd x nn) ∧ exec i s = .next t :=
  ⟨.skp 0, State.reset, _, nofun, rfl⟩

theorem witness_FaultsArePrecise : ∃ (s t : State) (keys : BitVec 16) (rnd : Byte) (rest : List Command),
    s.ports.script = .exec keys rnd :: rest ∧ s.ctrl.halted = false ∧ step s = .next t ∧ t.ctrl.halted = true := by
  have hs : after (step (ready (stacked State.reset 16) 0x22 0x00)) (fun t => t.ctrl.halted) = true := by decide
  obtain ⟨t, ht, hh⟩ := next_of_after hs
  exact ⟨ready (stacked State.reset 16) 0x22 0x00, t, 0, 0, [], by decide, by decide, ht, hh⟩

theorem witness_Ret : (∃ (s : State) (k : Fin 16), s.sp.val = k.val + 1 ∧ k = 0) ∧
    (∃ (s : State) (k : Fin 16), s.sp.val = k.val + 1 ∧ k = 15) ∧ (∃ s : State, s.sp.val = 0) :=
  ⟨⟨stacked State.reset 1, 0, by decide⟩, ⟨stacked State.reset 16, 15, by decide⟩, ⟨State.reset, by decide⟩⟩

theorem witness_Jp : ∃ nnn : Nat, nnn < 4096 ∧ nnn = 0xFFF := ⟨0xFFF, by decide⟩

theorem witness_Call : (∃ (s : State) (nnn : Nat) (k : Fin 16), nnn < 4096 ∧ s.sp.val = k.val ∧ k = 0) ∧
    (∃ (s : State) (nnn : Nat) (k : Fin 16), nnn < 4096 ∧ s.sp.val = k.val ∧ k = 15) ∧
    (∃ (s : State) (nnn : Nat), nnn < 4096 ∧ s.sp.val = 16) :=
  ⟨⟨State.reset, 0xFFF, 0, by decide⟩, ⟨stacked State.reset 15, 0, 15, by decide⟩, ⟨stacked State.reset 16, 0xFFF, by decide⟩⟩

/-- The round trip of E4: CALL at 0x200 with the deepest stack that still has room, then RET. -/
theorem witness_CallThenRet : ∃ (s t u w : State) (nnn : Nat), s.sp.val < 16 ∧ exec (.call nnn) s = .next t ∧
    u.sp = t.sp ∧ u.stack = t.stack ∧ exec .ret u = .next w :=
  ⟨stacked State.reset 15, _, _, _, 0x206, by decide, rfl, rfl, rfl, rfl⟩

theorem witness_JpV0 : (∃ (s : State) (nnn : Nat), nnn < 4096 ∧ s.cfg.jumpOffsetUsesVx = false) ∧
    (∃ (s : State) (nnn : Nat) (x : Reg), nnn < 4096 ∧ s.cfg.jumpOffsetUsesVx = true ∧ nnn / 256 = x.val) :=
  ⟨⟨State.reset, 0xFFF, by decide⟩,
    ⟨{ State.reset with cfg := { defaultParams with jumpOffsetUsesVx := true } }, 0xFFF, 15, by decide⟩⟩

theorem witness_Shifts : (∃ (s : State) (x y : Reg) (src : Byte), s.cfg.shiftUsesVy = false ∧
      src = (if s.cfg.shiftUsesVy = true then s.getV y else s.getV x)) ∧
    (∃ (s : State) (x y : Reg) (src : Byte), s.cfg.shiftUsesVy = true ∧
      src = (if s.cfg.shiftUsesVy = true then s.getV y else s.getV x)) :=
  ⟨⟨regs [(15, 0x81)], 15, 1, 0x81, by decide⟩,
    ⟨{ regs [(1, 0x81)] with cfg := { defaultParams with shiftUsesVy := true } }, 0, 1, 0x81, by decide⟩⟩

theorem witness_LdB : (∃ s : State, ¬ Protected s (s.ea 0) ∧ Protected s (s.ea 1) ∧ Protected s (s.ea 2)) ∧
    (∃ s : State, Protected s (s.ea 1) ∧ ¬ Protected s (s.ea 2)) ∧
    (∃ s : State, ¬ Protected s (s.ea 0) ∧ ¬ Protected s (s.ea 1) ∧ ¬ Protected s (s.ea 2) ∧ s.ea 2 = 0) ∧
    (∃ s : State, ¬ Protected s (s.ea 0) ∧ s.ea 0 = 0x050) := by
  simp only [Protected]
  exact ⟨⟨State.reset.setI 0x04F, by decide⟩, ⟨State.reset.setI 0x09E, by decide⟩, ⟨State.reset.setI 0xFFE, by decide⟩,
    ⟨{ State.reset with cfg := { defaultParams with fontRegionWritable := true } }.setI 0x050, by decide⟩⟩

theorem witness_LoadStoreIndex : (∃ s : State, s.cfg.loadStoreIncrementsI = false) ∧
    (∃ s : State, s.cfg.loadStoreIncrementsI = true) :=
  ⟨⟨State.reset, by decide⟩, ⟨{ State.reset with cfg := { defaultParams with loadStoreIncrementsI := true } }, by decide⟩⟩

/-- Program P5: FX55 at 0x206 stores V0 and V1 over both bytes of 0x208. -/
theorem witness_StoredWord : ∃ (s t : State) (x : Reg), nextAddress s ≠ 0xFFF ∧ exec (.ldMemVx x) s = .next t ∧
    ((0 : Reg) ≤ x ∧ ¬ Protected s (s.ea 0) ∧ s.ea 0 = nextAddress s) ∧
    ((1 : Reg) ≤ x ∧ ¬ Protected s (s.ea 1) ∧ s.ea 1 = nextAddress s + 1) := by
  simp only [Protected]
  exact ⟨((regs [(0, 0x6B), (1, 0x42)]).setPc 0x206).setI 0x208, _, 1, by decide, rfl, by decide⟩

/-- The ends of FX55's range: V0 alone over the low byte, and VF alone over the high byte. -/
theorem witness_StoredWord_ends : (∃ s : State, nextAddress s ≠ 0xFFF ∧ ¬ Protected s (s.ea 0) ∧
      s.ea 0 = nextAddress s + 1) ∧
    (∃ s : State, nextAddress s ≠ 0xFFF ∧ ¬ Protected s (s.ea 15) ∧ s.ea 15 = nextAddress s) := by
  simp only [Protected]
  exact ⟨⟨(State.reset.setPc 0x206).setI 0x209, by decide⟩, ⟨(State.reset.setPc 0x206).setI 0x1F9, by decide⟩⟩

/-- FX33 at 0x206 with I = 0x208 and with I = 0x206: hundreds and tens over both bytes, ones over the high byte. -/
theorem witness_StoredWord_bcd : (∃ (s t : State) (x : Reg), nextAddress s ≠ 0xFFF ∧ exec (.ldB x) s = .next t ∧
      ¬ Protected s (s.ea 0) ∧ s.ea 0 = nextAddress s ∧ ¬ Protected s (s.ea 1) ∧ s.ea 1 = nextAddress s + 1) ∧
    (∃ (s t : State) (x : Reg), nextAddress s ≠ 0xFFF ∧ exec (.ldB x) s = .next t ∧
      ¬ Protected s (s.ea 2) ∧ s.ea 2 = nextAddress s) := by
  simp only [Protected]
  exact ⟨⟨((regs [(1, 0x7B)]).setPc 0x206).setI 0x208, _, 1, by decide, rfl, by decide⟩,
    ⟨((regs [(1, 0x7B)]).setPc 0x206).setI 0x206, _, 1, by decide, rfl, by decide⟩⟩

theorem witness_Drw : ∃ n : Nat, n < 16 ∧ n = 15 := ⟨15, by decide⟩

/-- DRW-1 and then DRW-2: the second draw from the state the first leaves. -/
theorem witness_DrawingTwice : ∃ (s t u w : State) (x y x' y' : Reg) (n : Nat), exec (.drw x y n) s = .next t ∧
    u.fb = t.fb ∧ u.getV x' = s.getV x ∧ u.getV y' = s.getV y ∧ u.i = s.i ∧ (∀ a, u.memRead a = s.memRead a) ∧
    exec (.drw x' y' n) u = .next w :=
  ⟨State.reset.setI 0x069, _, _, _, 1, 1, 1, 1, 5, rfl, rfl, rfl, rfl, rfl, fun _ => rfl, rfl⟩

/-- The same with X = F: the first draw overwrites VF, so the second names another register with the old value. -/
theorem witness_DrawingTwice_VF : ∃ (s t u w : State) (x y x' y' : Reg) (n : Nat), x = 15 ∧ exec (.drw x y n) s = .next t ∧
    u.fb = t.fb ∧ u.getV x' = s.getV x ∧ u.getV y' = s.getV y ∧ u.i = s.i ∧ (∀ a, u.memRead a = s.memRead a) ∧
    exec (.drw x' y' n) u = .next w :=
  ⟨regs [(15, 3), (2, 3)], _, _, _, 15, 1, 2, 1, 1, rfl, rfl, rfl, rfl, rfl, rfl, fun _ => rfl, rfl⟩

theorem witness_SkipsOnAKey : ∃ (s : State) (x : Reg) (k : Nat), k = (s.getV x).toNat % 16 ∧ k = 10 :=
  ⟨regs [(4, 0x1A)], 4, 10, by decide⟩

theorem witness_LdVxK : (∃ s : State, s.ports.keys ≠ 0) ∧ (∃ s : State, s.ports.keys = 0) :=
  ⟨⟨State.reset.setPorts { Ports.reset with keys := 0x8000 }, by decide⟩, ⟨State.reset, by decide⟩⟩

theorem witness_Passive : (64 ≤ 64 ∨ 32 ≤ 0) ∧ (64 ≤ 0 ∨ 32 ≤ 32) ∧ 31 < 32 ∧ 63 < 64 ∧
    (∃ r : CommandResult, r ≠ .programTooLarge ∧ ∀ c, r ≠ .fault c) :=
  ⟨by decide, by decide, by decide, by decide, .loadOk, nofun, nofun⟩

end Sys2Proof.Tests
end

section
/-! PROOFS for 00_scope.md: what the free inputs of an EXEC reach (R8), and the default parameters (R7). No instruction
but those that read KEYS or RND looks at the host interface; the laws say so for any change of it that leaves a command's
result to be written as before. -/

namespace Sys2Proof.Machine

/-- The state with its host interface changed by `g`. -/
def State.mapPorts (g : Ports → Ports) (s : State) : State := { s with ports := g s.ports }

/-- The same change of the state under an outcome; the other outcomes hold no state. -/
def mapNext (f : State → State) : Host.Outcome State Fault Refusal → Host.Outcome State Fault Refusal
  | .next s => .next (f s)
  | .fault r => .fault r
  | .refused r => .refused r

/-- A change of the host interface that a command's result does not enter: it commutes with writing the result. -/
def KeepsResult (g : Ports → Ports) : Prop := ∀ p r, g { p with result := r } = { g p with result := r }

/-- Whether an instruction reads KEYS (R230). -/
def readsKeys : Instr → Bool
  | .skp _ | .sknp _ | .ldVxK _ => true
  | _ => false

/-- Whether an instruction reads RND (R177). -/
def readsRnd : Instr → Bool
  | .rnd _ _ => true
  | _ => false

section

variable {g : Ports → Ports} (hg : KeepsResult g) (s : State)

/-! The shared operations do not look at the host interface. -/

@[simp] theorem State.npc_mapPorts : (s.mapPorts g).npc = s.npc := rfl

theorem State.memWrite_mapPorts (a : Nat) (b : Byte) :
    (s.mapPorts g).memWrite a b = (s.memWrite a b).mapPorts g := by
  unfold State.memWrite
  rw [apply_ite (State.mapPorts g)]
  rfl

theorem State.stepIndex_mapPorts (x : Reg) : (s.mapPorts g).stepIndex x = (s.stepIndex x).mapPorts g := by
  unfold State.stepIndex
  rw [apply_ite (State.mapPorts g)]
  rfl

theorem State.storeBcd_mapPorts (v : Byte) : (s.mapPorts g).storeBcd v = (s.storeBcd v).mapPorts g := by
  unfold State.storeBcd
  simp only [State.memWrite_mapPorts]
  rfl

theorem State.storeRegs_mapPorts (x : Reg) : (s.mapPorts g).storeRegs x = (s.storeRegs x).mapPorts g :=
  List.foldl_hom (State.mapPorts g) fun t _ => t.memWrite_mapPorts _ _

theorem State.loadRegs_mapPorts (x : Reg) : (s.mapPorts g).loadRegs x = (s.loadRegs x).mapPorts g :=
  List.foldl_hom (State.mapPorts g) fun _ _ => rfl

theorem State.push?_mapPorts (a : Nat) : (s.mapPorts g).push? a = (s.push? a).map (State.mapPorts g) := by
  unfold State.push?
  rw [apply_dite (Option.map (State.mapPorts g))]
  rfl

theorem State.pop?_mapPorts : (s.mapPorts g).pop? = s.pop?.map (Prod.map id (State.mapPorts g)) := by
  unfold State.pop?
  rw [apply_dite (Option.map (Prod.map id (State.mapPorts g)))]
  rfl

/-- The lowest pressed key depends on KEYS alone (R233). -/
theorem State.lowestKey?_mapPorts (hk : (g s.ports).keys = s.ports.keys) :
    (s.mapPorts g).lowestKey? = s.lowestKey? :=
  congrArg (fun keys : BitVec 16 => (List.range 16).find? keys.getLsbD) hk

/-! The ends of an instruction write the result and nothing else of the host interface. -/

include hg

theorem State.setResult_mapPorts (r : CommandResult) : (s.mapPorts g).setResult r = (s.setResult r).mapPorts g :=
  congrArg s.setPorts (hg s.ports r).symm

theorem jumpTo_mapPorts (t : Nat) : jumpTo t (s.mapPorts g) = mapNext (State.mapPorts g) (jumpTo t s) :=
  congrArg Host.Outcome.next (State.setResult_mapPorts hg (s.setPc t) .progress)

theorem advance_mapPorts : advance (s.mapPorts g) = mapNext (State.mapPorts g) (advance s) :=
  jumpTo_mapPorts hg s s.npc

theorem skipIf_mapPorts (c : Bool) : skipIf c (s.mapPorts g) = mapNext (State.mapPorts g) (skipIf c s) :=
  jumpTo_mapPorts hg s (if c then s.npc + 2 else s.npc)

theorem raiseFault_mapPorts (code : FaultCode) (word : Option Word) :
    raiseFault code word (s.mapPorts g) = mapNext (State.mapPorts g) (raiseFault code word s) :=
  congrArg Host.Outcome.next (State.setResult_mapPorts hg (s.setCtrl (s.ctrl.faulted code s.pc word)) (.fault code))

/-! The instructions with more than one end, or with an effect that is not one record update. -/

theorem execRet_mapPorts : execRet (s.mapPorts g) = mapNext (State.mapPorts g) (execRet s) := by
  unfold execRet
  rw [State.pop?_mapPorts]
  cases s.pop? with
  | none => exact raiseFault_mapPorts hg s _ _
  | some p => exact jumpTo_mapPorts hg p.2 _

theorem execCall_mapPorts (nnn : Nat) :
    execCall nnn (s.mapPorts g) = mapNext (State.mapPorts g) (execCall nnn s) := by
  unfold execCall
  rw [State.npc_mapPorts, State.push?_mapPorts]
  cases s.push? s.npc with
  | none => exact raiseFault_mapPorts hg s _ _
  | some u => exact jumpTo_mapPorts hg u nnn

theorem execLdVxK_mapPorts (x : Reg) (hk : (g s.ports).keys = s.ports.keys) :
    execLdVxK x (s.mapPorts g) = mapNext (State.mapPorts g) (execLdVxK x s) := by
  unfold execLdVxK
  rw [State.lowestKey?_mapPorts s hk]
  cases s.lowestKey? with
  | none => exact congrArg Host.Outcome.next (State.setResult_mapPorts hg s .noProgress)
  | some k => exact advance_mapPorts hg (s.setV x (BitVec.ofNat 8 k))

/-- What reaches an instruction from the host interface is KEYS or RND, and only for the instructions that read it (R8,
R177, R230): any change that keeps the input `i` reads may as well be made after `i` has run. -/
theorem exec_mapPorts (i : Instr) (hk : readsKeys i = true → (g s.ports).keys = s.ports.keys)
    (hr : readsRnd i = true → (g s.ports).rnd = s.ports.rnd) :
    exec i (s.mapPorts g) = mapNext (State.mapPorts g) (exec i s) := by
  have hkey (k : Nat) (h : readsKeys i = true) : (s.mapPorts g).key k = s.key k :=
    congrArg (fun keys : BitVec 16 => keys.getLsbD k) (hk h)
  cases i with
  | cls => exact advance_mapPorts hg (s.setFb Framebuffer.clear)
  | ret => exact execRet_mapPorts hg s
  | jp nnn => exact jumpTo_mapPorts hg s nnn
  | call nnn => exact execCall_mapPorts hg s nnn
  | seImm x nn => exact skipIf_mapPorts hg s (s.getV x == nn)
  | sneImm x nn => exact skipIf_mapPorts hg s (s.getV x != nn)
  | seReg x y => exact skipIf_mapPorts hg s (s.getV x == s.getV y)
  | sneReg x y => exact skipIf_mapPorts hg s (s.getV x != s.getV y)
  | ldImm x nn => exact advance_mapPorts hg (s.setV x nn)
  | addImm x nn => exact advance_mapPorts hg (s.setV x (add8 (s.getV x) nn).1)
  | ldReg x y => exact advance_mapPorts hg (s.setV x (s.getV y))
  | orReg x y => exact advance_mapPorts hg (s.setV x (or8 (s.getV x) (s.getV y)))
  | andReg x y => exact advance_mapPorts hg (s.setV x (and8 (s.getV x) (s.getV y)))
  | xorReg x y => exact advance_mapPorts hg (s.setV x (xor8 (s.getV x) (s.getV y)))
  | addReg x y => exact advance_mapPorts hg (s.setResultAndFlag x (add8 (s.getV x) (s.getV y)))
  | sub x y => exact advance_mapPorts hg (s.setResultAndFlag x (sub8 (s.getV x) (s.getV y)))
  | subn x y => exact advance_mapPorts hg (s.setResultAndFlag x (sub8 (s.getV y) (s.getV x)))
  | shr x y => exact advance_mapPorts hg (s.setResultAndFlag x (shr8 (s.shiftSource x y)))
  | shl x y => exact advance_mapPorts hg (s.setResultAndFlag x (shl8 (s.shiftSource x y)))
  | ldI nnn => exact advance_mapPorts hg (s.setI nnn)
  | jpV0 nnn => exact jumpTo_mapPorts hg s (nnn + (s.jumpOffset nnn).toNat)
  | rnd x nn =>
    change advance ((s.mapPorts g).setV x (and8 (g s.ports).rnd nn)) = _
    rw [hr rfl]
    exact advance_mapPorts hg (s.setV x (and8 s.ports.rnd nn))
  | drw x y n => exact advance_mapPorts hg ((s.setFb (s.drawn x y n).1).setFlag (s.drawn x y n).2)
  | skp x =>
    change skipIf ((s.mapPorts g).key (s.selectedKey x)) (s.mapPorts g) = _
    rw [hkey _ rfl]
    exact skipIf_mapPorts hg s (s.key (s.selectedKey x))
  | sknp x =>
    change skipIf (!(s.mapPorts g).key (s.selectedKey x)) (s.mapPorts g) = _
    rw [hkey _ rfl]
    exact skipIf_mapPorts hg s (!s.key (s.selectedKey x))
  | ldVxDt x => exact advance_mapPorts hg (s.setV x s.dt)
  | ldVxK x => exact execLdVxK_mapPorts hg s x (hk rfl)
  | ldDt x => exact advance_mapPorts hg (s.setDt (s.getV x))
  | ldSt x => exact advance_mapPorts hg (s.setSt (s.getV x))
  | addI x => exact advance_mapPorts hg (s.setI (s.i.toNat + (s.getV x).toNat))
  | ldF x => exact advance_mapPorts hg (s.setI (glyphAddress (s.getV x)))
  | ldB x =>
    change advance ((s.mapPorts g).storeBcd (s.getV x)) = _
    rw [State.storeBcd_mapPorts]
    exact advance_mapPorts hg (s.storeBcd (s.getV x))
  | ldMemVx x =>
    change advance (((s.mapPorts g).storeRegs x).stepIndex x) = _
    rw [State.storeRegs_mapPorts, State.stepIndex_mapPorts]
    exact advance_mapPorts hg ((s.storeRegs x).stepIndex x)
  | ldVxMem x =>
    change advance (((s.mapPorts g).loadRegs x).stepIndex x) = _
    rw [State.loadRegs_mapPorts, State.stepIndex_mapPorts]
    exact advance_mapPorts hg ((s.loadRegs x).stepIndex x)

end

/-- The instructions that do not read RND are all but CXNN. -/
theorem readsRnd_eq_false {i : Instr} (h : ∀ x nn, i ≠ .rnd x nn) : readsRnd i = false := by
  cases i with
  | rnd x nn => exact absurd rfl (h x nn)
  | _ => rfl

/-- Settles O25: an arbitrary draw put in place of RND is a change of the host interface that keeps results and KEYS,
so by `exec_mapPorts` only an instruction that reads RND could see it. -/
theorem randomDrawReachesOnlyRnd : Obligations.RandomDrawReachesOnlyRnd := by
  unfold Obligations.RandomDrawReachesOnlyRnd
  intro i s t rnd hi ht
  have hr : readsRnd i = true → rnd = s.ports.rnd := by simp [readsRnd_eq_false hi]
  have h := exec_mapPorts (g := fun p => { p with rnd := rnd }) (fun _ _ => rfl) s i (fun _ => rfl) hr
  rw [ht] at h
  exact h

/-- Settles O17: the power-on state holds the default parameters by definition, and the table of R55 is their font. -/
theorem powerOnParametersAreTheDefaults : Obligations.PowerOnParametersAreTheDefaults := by
  unfold Obligations.PowerOnParametersAreTheDefaults
  refine ⟨rfl, rfl, rfl, rfl, rfl, ?font⟩
  case font => decide

end Sys2Proof.Machine
end

section
/-! PROOFS for 10_state.md: which pieces of the state an instruction writes (R31), and the invariant of the machine. What
an instruction can do is said once, in `exec_ends`: it writes pieces that the access table allows it and moves PC, or it
waits, or it faults. The frame and the invariant each follow by going over the pieces, not over the 34 instructions. -/

namespace Sys2Proof.Machine

open Sys2Proof.Config

/-! ## What an instruction can do -/

/-- The states reached from `s` by writing single pieces of it, each one that `P` allows, with the model's own masks on I
and the stack (R25, R26) and its own check of a memory write (R61). PC, CTRL, the parameters and the host interface are
not among the pieces. -/
inductive Writes (P : Component → Prop) (s : State) : State → Prop
  | start : Writes P s s
  | setV {t x} (h : Writes P s t) (hP : P (.v x)) (b : Byte) : Writes P s (t.setV x b)
  | setI {t} (h : Writes P s t) (hP : P .i) (n : Nat) : Writes P s (t.setI n)
  | setSlot {t} {k : Fin 16} (h : Writes P s t) (hP : P (.slot k)) (n : Nat) :
      Writes P s { t with stack := t.stack.set k (mask12 n) }
  | setSp {t} (h : Writes P s t) (hP : P .sp) (n : Fin 17) : Writes P s { t with sp := n }
  | setDt {t} (h : Writes P s t) (hP : P .dt) (b : Byte) : Writes P s (t.setDt b)
  | setSt {t} (h : Writes P s t) (hP : P .st) (b : Byte) : Writes P s (t.setSt b)
  | memWrite {t a} (h : Writes P s t) (hP : P (.byte a)) (ha : a < memSize) (b : Byte) : Writes P s (t.memWrite a b)
  | setFb {t} (h : Writes P s t) (hP : P .fb) (fb : Framebuffer) : Writes P s (t.setFb fb)

/-- How instruction `i` can end in `s` (R119, R120, R122, R256). -/
inductive Ends (i : Instr) (s : State) : Host.Outcome State Fault Refusal → Prop
  /-- it has written what R31 allows it, and PC moves -/
  | moved {u} (n : Nat) (h : Writes (mayChange i s) s u) : Ends i s (jumpTo n u)
  /-- it waits for a key -/
  | stalled : Ends i s (.next s.stalled)
  /-- it faults, after its word was fetched -/
  | faulted {code} (word : Word) (hP : mayChange i s .ctrl) (hcode : code ≠ .none ∧ code ≠ .pcOutOfBounds) :
      Ends i s (raiseFault code (some word) s)

section

variable {P : Component → Prop} {s t : State} {i : Instr}

/-- Writing pieces leaves PC, CTRL, the parameters and the host interface alone. -/
theorem Writes.keeps (h : Writes P s t) : t.pc = s.pc ∧ t.ctrl = s.ctrl ∧ t.cfg = s.cfg ∧ t.ports = s.ports := by
  induction h with
  | start => exact ⟨rfl, rfl, rfl, rfl⟩
  | memWrite _ _ _ _ ih => simpa using ih
  | _ => assumption

theorem Writes.setFlag (h : Writes P s t) (hF : P (.v regF)) (f : Bool) : Writes P s (t.setFlag f) := h.setV hF _

theorem Writes.setResultAndFlag {x : Reg} (h : Writes P s t) (hx : P (.v x)) (hF : P (.v regF)) (r : Byte × Bool) :
    Writes P s (t.setResultAndFlag x r) :=
  (h.setV hx r.1).setFlag hF r.2

theorem Writes.stepIndex (h : Writes P s t) (hi : s.cfg.loadStoreIncrementsI = true → P .i) (x : Reg) :
    Writes P s (t.stepIndex x) := by
  obtain ⟨-, -, hcfg, -⟩ := h.keeps
  unfold State.stepIndex
  split
  · next hinc => exact h.setI (hi (hcfg ▸ hinc)) _
  · exact h

theorem writes_storeBcd (v : Byte) (hP : ∀ k < 3, P (.byte (s.ea k))) : Writes P s (s.storeBcd v) := by
  have h0 := (Writes.start (s := s)).memWrite (hP 0 (by decide)) (s.ea_lt 0) (hundreds v)
  have h1 := h0.memWrite (hP 1 (by decide)) (s.ea_lt 1) (tens v)
  exact h1.memWrite (hP 2 (by decide)) (s.ea_lt 2) (ones v)

theorem writes_storeRegs (x : Reg) (hP : ∀ k ≤ x, P (.byte (s.ea k.val))) : Writes P s (s.storeRegs x) :=
  List.foldlRecOn _ _ .start fun _ h k hk => h.memWrite (hP k ((mem_regsUpTo x k).1 hk)) (s.ea_lt _) _

theorem writes_loadRegs (x : Reg) (hP : ∀ k ≤ x, P (.v k)) : Writes P s (s.loadRegs x) :=
  List.foldlRecOn _ _ .start fun _ h k hk => h.setV (hP k ((mem_regsUpTo x k).1 hk)) _

theorem ends_advance {u} (h : Writes (mayChange i s) s u) : Ends i s (advance u) := .moved u.npc h

theorem ends_skipIf (c : Bool) : Ends i s (skipIf c s) := .moved (if c then s.npc + 2 else s.npc) .start

/-- An instruction that writes one register. -/
theorem ends_setV {x : Reg} (hx : writesRegister i x = true) (b : Byte) : Ends i s (advance (s.setV x b)) :=
  ends_advance (.setV .start hx b)

/-- An instruction that writes a result and its flag. -/
theorem ends_setResultAndFlag {x : Reg} (hx : writesRegister i x = true) (hF : writesRegister i regF = true)
    (r : Byte × Bool) : Ends i s (advance (s.setResultAndFlag x r)) :=
  ends_advance (Writes.start.setResultAndFlag hx hF r)

end

theorem execRet_ends (s : State) : Ends .ret s (execRet s) := by
  unfold execRet
  obtain ⟨hsp, hpop⟩ | ⟨_, -, hpop⟩ := s.pop?_cases <;> rw [hpop]
  · exact .faulted _ hsp (by decide)
  · exact .moved _ (.setSp .start trivial _)

theorem execCall_ends (s : State) (nnn : Nat) : Ends (.call nnn) s (execCall nnn s) := by
  unfold execCall
  obtain ⟨hsp, hpush⟩ | ⟨hsp, hpush⟩ := s.push?_cases s.npc <;> rw [hpush]
  · exact .faulted _ hsp (by decide)
  · have hslot : mayChange (.call nnn) s (.slot ⟨s.sp.val, hsp⟩) := rfl
    exact .moved nnn ((Writes.start.setSlot hslot s.npc).setSp trivial _)

theorem execLdVxK_ends (s : State) (x : Reg) : Ends (.ldVxK x) s (execLdVxK x s) := by
  unfold execLdVxK
  cases s.lowestKey? with
  | none => exact .stalled
  | some k => exact ends_setV (by simp [writesRegister]) _

/-- ALL AN INSTRUCTION CAN DO: it always answers a next state, and by one of the ways of `Ends`. -/
theorem exec_ends (i : Instr) (s : State) : Ends i s (exec i s) := by
  cases i with
  | cls => exact ends_advance (.setFb .start trivial _)
  | ret => exact execRet_ends s
  | call nnn => exact execCall_ends s nnn
  | jp _ | jpV0 _ => exact .moved _ .start
  | seImm _ _ | sneImm _ _ | seReg _ _ | sneReg _ _ | skp _ | sknp _ => exact ends_skipIf _
  | ldImm x _ | addImm x _ | ldReg x _ | orReg x _ | andReg x _ | xorReg x _ | rnd x _ | ldVxDt x =>
    exact ends_setV (by simp [writesRegister]) _
  | addReg x _ | sub x _ | subn x _ | shr x _ | shl x _ =>
    exact ends_setResultAndFlag (by simp [writesRegister]) (by simp [writesRegister, regF]) _
  | drw x y n =>
    have hfb : mayChange (.drw x y n) s .fb := trivial
    exact ends_advance ((Writes.start.setFb hfb _).setFlag (beq_self_eq_true regF) _)
  | ldVxK x => exact execLdVxK_ends s x
  | ldDt _ => exact ends_advance (.setDt .start trivial _)
  | ldSt _ => exact ends_advance (.setSt .start trivial _)
  | ldI _ | addI _ | ldF _ => exact ends_advance (.setI .start trivial _)
  | ldB x => exact ends_advance (writes_storeBcd _ fun k hk => ⟨k, hk, rfl⟩)
  | ldMemVx x => exact ends_advance ((writes_storeRegs x fun k hk => ⟨k.val, hk, rfl⟩).stepIndex id x)
  | ldVxMem x => exact ends_advance ((writes_loadRegs x fun _ hk => decide_eq_true hk).stepIndex id x)

theorem exec_ends_next {i : Instr} {s t : State} (ht : exec i s = .next t) : Ends i s (.next t) := ht ▸ exec_ends i s

/-! ## The frame -/

section

variable {P : Component → Prop} {s t : State}

/-- A piece that is not allowed to be written stays the same. -/
theorem Writes.same (h : Writes P s t) : ∀ c, ¬ P c → Same s t c := by
  induction h with
  | start => intro c _; cases c <;> simp [Same]
  | @setV t x _ hP b ih =>
    intro c hc
    cases c with
    | v r => exact (t.getV_setV_ne b fun e => hc (by rwa [e])).trans (ih _ hc)
    | _ => exact ih _ hc
  | @setSlot t k _ hP n ih =>
    intro c hc
    cases c with
    | slot j =>
      have hkj : k.val ≠ j.val := fun e => hc (by rwa [← Fin.ext e])
      exact (Vector.getElem_set_ne k.isLt j.isLt hkj).trans (ih _ hc)
    | _ => exact ih _ hc
  | @memWrite t a _ hP _ b ih =>
    intro c hc
    cases c with
    | byte d =>
      have hd : ¬ (d = a ∧ t.writeProtected a = false) := fun e => hc (e.1 ▸ hP)
      exact ((t.memRead_memWrite a d b).trans (if_neg hd)).trans (ih _ hc)
    | _ => simpa [Same] using ih _ hc
  | setI _ hP _ ih =>
    intro c hc
    cases c with
    | i => exact absurd hP hc
    | _ => exact ih _ hc
  | setSp _ hP _ ih =>
    intro c hc
    cases c with
    | sp => exact absurd hP hc
    | _ => exact ih _ hc
  | setDt _ hP _ ih =>
    intro c hc
    cases c with
    | dt => exact absurd hP hc
    | _ => exact ih _ hc
  | setSt _ hP _ ih =>
    intro c hc
    cases c with
    | st => exact absurd hP hc
    | _ => exact ih _ hc
  | setFb _ hP _ ih =>
    intro c hc
    cases c with
    | fb => exact absurd hP hc
    | _ => exact ih _ hc

end

/-- Settles O23: an instruction that ends by moving PC has written allowed pieces, PC and the result; a wait writes the
result; a fault writes CTRL and the result, and the table lets CTRL change where the instruction can fault. -/
theorem instructionsChangeOnlyWhatTheAccessTableAllows :
    Obligations.InstructionsChangeOnlyWhatTheAccessTableAllows := by
  unfold Obligations.InstructionsChangeOnlyWhatTheAccessTableAllows
  intro i s t ht c hc
  cases exec_ends_next ht with
  | moved n h =>
    have hsame := h.same c hc
    cases c with
    | pc | result => exact absurd trivial hc
    | _ => exact hsame
  | stalled =>
    cases c with
    | result => exact absurd trivial hc
    | _ => simp [Same]
  | faulted word hP _ =>
    cases c with
    | ctrl => exact absurd hP hc
    | result => exact absurd trivial hc
    | _ => simp [Same]

/-! ## The invariant -/

/-- Memory that no write has reached holds FONT at its place (R32). -/
theorem Memory.unlisted_font (font : Font) (k : Fin 80) : Memory.unlisted font (fontBase + k.val) = font[k] := by
  have hk : fontBase ≤ fontBase + k.val ∧ fontBase + k.val < fontLimit := by
    simp only [fontBase, fontLimit]; omega
  simp [Memory.unlisted, hk]

/-- Memory that no write has reached is 0 outside the font region (R32). -/
theorem Memory.unlisted_outside (font : Font) {a : Nat} (ha : a < 0x050 ∨ 0x0A0 ≤ a) : Memory.unlisted font a = 0 := by
  have : ¬ (fontBase ≤ a ∧ a < fontLimit) := by simp only [fontBase, fontLimit]; omega
  exact dif_neg this

section

variable {P : Component → Prop} {s t : State}

/-- What CTRL says is legal still, as long as a halted core keeps its PC (R257). -/
theorem State.CtrlLegal.of_same (h : s.CtrlLegal) (hctrl : t.ctrl = s.ctrl)
    (hpc : s.ctrl.halted = true → t.pc = s.pc) : t.CtrlLegal := by
  obtain ⟨hcode, hvalid, hzero, hat, hstarted⟩ := h
  constructor <;> rw [hctrl]
  case atFault => exact fun hhalted => (hat hhalted).trans (hpc hhalted).symm
  all_goals assumption

/-- The invariant reads PC, I, the stack, memory, the parameters and CTRL, and nothing else. -/
theorem State.Inv.of_same (h : s.Inv) (hpc : t.pc = s.pc) (hi : t.i = s.i) (hstack : t.stack = s.stack)
    (hmem : t.mem = s.mem) (hcfg : t.cfg = s.cfg) (hctrl : t.ctrl = s.ctrl) : t.Inv where
  registers := ⟨hpc ▸ h.registers.pc, hi ▸ h.registers.i, hstack ▸ h.registers.stack⟩
  memory := by rw [hcfg, hmem]; exact h.memory
  font := by unfold State.FontIntact State.memRead; rw [hcfg, hmem]; exact h.font
  ctrl := h.ctrl.of_same hctrl fun _ => hpc

/-- A memory write keeps the protected font (R53, R61). -/
theorem State.FontIntact.memWrite (h : s.FontIntact) (a : Nat) (b : Byte) : (s.memWrite a b).FontIntact := by
  unfold State.FontIntact
  rw [State.memWrite_cfg]
  intro hprot k
  rw [State.memRead_memWrite, if_neg, h hprot k]
  rintro ⟨rfl, hopen⟩
  have hk : inFontRegion (fontBase + k.val) = true := by
    simp only [inFontRegion, fontBase, fontLimit, Bool.and_eq_true, decide_eq_true_eq]; omega
  simp [State.writeProtected, hk, hprot] at hopen

/-- A push masks its address, so the entries of the stack keep their 12 bits (R26). -/
theorem State.RegistersInRange.set_stack_lt (h : s.RegistersInRange) (k : Fin 16) (n : Nat) :
    ∀ j : Fin 16, ((s.stack.set k (mask12 n))[j]).toNat < 4096 := by
  intro j
  rw [Fin.getElem_fin, Vector.getElem_set]
  split
  · exact mask12_lt n
  · exact h.stack j

/-- WRITING PIECES KEEPS THE INVARIANT, whichever pieces they are. -/
theorem Writes.inv (h : Writes P s t) (hs : s.Inv) : t.Inv := by
  induction h with
  | start => exact hs
  | setI _ _ n ih =>
    exact ⟨⟨ih.registers.pc, mask12_lt n, ih.registers.stack⟩, ih.memory, ih.font, ih.ctrl.of_same rfl fun _ => rfl⟩
  | setSlot _ _ n ih =>
    exact ⟨⟨ih.registers.pc, ih.registers.i, ih.registers.set_stack_lt _ n⟩, ih.memory, ih.font,
      ih.ctrl.of_same rfl fun _ => rfl⟩
  | @memWrite t a _ _ ha b ih =>
    refine ⟨⟨?_, ?_, ?_⟩, ?_, ih.font.memWrite a b, ih.ctrl.of_same (by simp) fun _ => by simp⟩
    · simpa using ih.registers.pc
    · simpa using ih.registers.i
    · simpa using ih.registers.stack
    · simpa using t.memWrite_wf ih.memory ha b
  | setV _ _ _ ih | setSp _ _ _ ih | setDt _ _ _ ih | setSt _ _ _ ih | setFb _ _ _ ih =>
    exact ih.of_same rfl rfl rfl rfl rfl rfl

/-- Moving PC keeps the invariant in RUN: the new PC is masked (R24). -/
theorem State.Inv.moved (h : s.Inv) (hrun : s.ctrl.halted = false) (n : Nat) : (s.setPc n).committed.Inv :=
  ⟨⟨mask12_lt n, h.registers.i, h.registers.stack⟩, h.memory, h.font,
    h.ctrl.of_same rfl fun hhalted => by simp [hrun] at hhalted⟩

/-- Fault entry keeps the invariant: only an EXEC faults, after it has set STARTED (R115), and a word was fetched unless
the fetch itself faults (R256). -/
theorem State.Inv.faulted (h : s.Inv) (hstarted : s.ctrl.started = true) {code : FaultCode} {word : Option Word}
    (hcode : code ≠ .none) (hword : word.isSome = true ↔ code ≠ .pcOutOfBounds) :
    ((s.setCtrl (s.ctrl.faulted code s.pc word)).setResult (.fault code)).Inv where
  registers := ⟨h.registers.pc, h.registers.i, h.registers.stack⟩
  memory := h.memory
  font := h.font
  ctrl := {
    code := by simp [Ctrl.faulted, hcode]
    wordValid := by simp only [State.setResult_ctrl, State.setCtrl_ctrl, Ctrl.faulted, hword]; tauto
    wordZero := by cases word <;> simp [Ctrl.faulted]
    atFault := fun _ => rfl
    started := fun _ => hstarted }

/-- The result of a command is no part of the invariant. -/
theorem State.Inv.setResult (h : s.Inv) (r : CommandResult) : (s.setResult r).Inv :=
  h.of_same rfl rfl rfl rfl rfl rfl

/-- The reset state has the invariant whatever the parameters: memory is the unwritten one, FONT and zeroes (R291). -/
theorem resetCommand_inv (s : State) : (resetCommand s).Inv := by
  have hregisters : State.reset.RegistersInRange := by constructor <;> decide
  have hctrl : State.reset.CtrlLegal := by constructor <;> decide
  exact ⟨⟨hregisters.pc, hregisters.i, hregisters.stack⟩, Memory.wf_nil _, fun _ => Memory.unlisted_font s.cfg.font,
    hctrl.of_same rfl fun _ => rfl⟩

/-- LOAD keeps the invariant: an accepted image lies in 0x200..0xFFF, above the font region (R292). -/
theorem State.Inv.loadCommand (h : s.Inv) (bytes : List Byte) : (loadCommand bytes s).Inv := by
  obtain ⟨-, hload⟩ | ⟨-, -, hload⟩ | ⟨-, hlen, hload⟩ := loadCommand_cases s bytes <;> rw [hload]
  · exact h.setResult _
  · exact h.setResult _
  · have hwf : Memory.wf s.cfg.font (Memory.storeBytes s.cfg.font s.mem programBase bytes) :=
      Memory.wf_storeBytes _ h.memory bytes (by simp only [programBase, memSize]; omega)
    have hfont : (s.loadImage bytes).FontIntact := fun hprot k => by
      have hbelow : ¬ (programBase ≤ fontBase + k.val ∧ fontBase + k.val < programBase + bytes.length) := by
        simp only [programBase, fontBase]; omega
      exact (Memory.read_storeBytes _ _ _ _ _).trans ((if_neg hbelow).trans (h.font hprot k))
    obtain ⟨hcode, hvalid, hzero, hat, hstarted⟩ := h.ctrl
    have hloaded : (s.loadImage bytes).Inv :=
      ⟨⟨h.registers.pc, h.registers.i, h.registers.stack⟩, hwf, hfont, ⟨hcode, hvalid, hzero, hat, hstarted⟩⟩
    exact hloaded.setResult _

theorem State.Inv.tickCommand (h : s.Inv) : (tickCommand s).Inv := by
  obtain ⟨-, htick⟩ | ⟨-, htick⟩ := tickCommand_cases s <;> rw [htick]
  · exact h.setResult _
  · exact h.of_same rfl rfl rfl rfl rfl rfl

/-- Every instruction keeps the invariant, by the ways it can end. -/
theorem State.Inv.exec (h : s.Inv) (hrun : s.ctrl.halted = false) (hstarted : s.ctrl.started = true) {i : Instr}
    (ht : exec i s = .next t) : t.Inv := by
  cases exec_ends_next ht with
  | @moved u n hu =>
    obtain ⟨-, hctrl, -, -⟩ := hu.keeps
    exact (hu.inv h).moved (by rw [hctrl, hrun]) n
  | stalled => exact h.setResult _
  | faulted word _ hcode => exact h.faulted hstarted hcode.1 (by simp [hcode.2])

theorem State.Inv.cycle (h : s.Inv) (hrun : s.ctrl.halted = false) (hstarted : s.ctrl.started = true)
    (ht : cycle s = .next t) : t.Inv := by
  obtain ⟨-, hcycle⟩ | ⟨-, _, -, hcycle⟩ | ⟨-, i, -, hcycle⟩ := cycle_cases s <;> rw [hcycle] at ht
  · cases ht
    exact h.faulted hstarted (by decide) (by decide)
  · obtain ⟨-, hinvalid⟩ | ⟨-, hinvalid⟩ := invalidWord_cases s s.fetchWord <;> rw [hinvalid] at ht <;> cases ht
    · exact h.faulted hstarted (by decide) (by simp)
    · exact h.moved hrun _
  · exact h.exec hrun hstarted ht

theorem State.Inv.execCommand (h : s.Inv) {keys : BitVec 16} {rnd : Byte} (ht : execCommand keys rnd s = .next t) :
    t.Inv := by
  obtain ⟨-, hexec⟩ | ⟨hrun, hexec⟩ := execCommand_cases s keys rnd <;> rw [hexec] at ht
  · cases ht
    exact h.setResult _
  · obtain ⟨hcode, hvalid, hzero, hat, -⟩ := h.ctrl
    have hsampled : (s.sample keys rnd).markStarted.Inv :=
      ⟨⟨h.registers.pc, h.registers.i, h.registers.stack⟩, h.memory, h.font, ⟨hcode, hvalid, hzero, hat, fun _ => rfl⟩⟩
    exact hsampled.cycle hrun rfl ht

/-- Taking a command off the script leaves the state of the core alone. -/
theorem State.Inv.issued (h : s.Inv) : s.issued.Inv := by
  unfold State.issued
  split <;> exact h.of_same rfl rfl rfl rfl rfl rfl

/-- Every command of the host keeps the invariant (R110). -/
theorem State.Inv.runCommand (h : s.Inv) {c : Command} (ht : runCommand c s = .next t) : t.Inv := by
  cases c with
  | reset => cases ht; exact resetCommand_inv s
  | load bytes => cases ht; exact h.loadCommand bytes
  | exec keys rnd => exact h.execCommand ht
  | tick => cases ht; exact h.tickCommand

end

/-- Settles O21: a step runs one command of the host, and each of the four keeps the invariant. -/
theorem everyStepKeepsTheInvariant : Obligations.EveryStepKeepsTheInvariant := by
  unfold Obligations.EveryStepKeepsTheInvariant
  exact fun _ _ hs ht => hs.issued.runCommand ht

/-! ## The power-on state -/

/-- Settles O22: the power-on state is what the RESET command leaves of it. -/
theorem powerOnStateHasTheInvariant : Obligations.PowerOnStateHasTheInvariant := by
  unfold Obligations.PowerOnStateHasTheInvariant
  exact resetCommand_inv State.reset

/-- Settles O16: registers, stack and framebuffer are filled with zeroes, and memory reads as FONT and zeroes; the three
glyphs of R55 are evaluated. -/
theorem powerOnStateHasTheResetValues : Obligations.PowerOnStateHasTheResetValues := by
  unfold Obligations.PowerOnStateHasTheResetValues
  refine ⟨?registers, rfl, rfl, rfl, ?stack, rfl, rfl, Framebuffer.pixel_clear, rfl, ?zeroes,
    Memory.unlisted_font defaultFont, ?glyphs⟩
  case registers => exact fun r => Vector.getElem_replicate r.isLt
  case stack => exact fun k => Vector.getElem_replicate k.isLt
  case zeroes => exact fun _ ha => Memory.unlisted_outside defaultFont ha
  case glyphs => decide

end Sys2Proof.Machine
end

section
/-! PROOFS for 20_memory.md: the key vector reaches only the instructions that read it (R50), and a stored byte is there
at the next fetch (R72). Both stores of the machine, FX33 and FX55, are one run of memory writes at EA(0), EA(1), ...;
what such a run leaves at an address is said once, in `foldl_memWrite_cases`. -/

namespace Sys2Proof.Machine

open Sys2Proof.Config

/-! ## The key vector -/

/-- The instructions that do not read KEYS are all but EX9E, EXA1 and FX0A. -/
theorem readsKeys_eq_false {i : Instr} (hskp : ∀ x, i ≠ .skp x) (hsknp : ∀ x, i ≠ .sknp x)
    (hldVxK : ∀ x, i ≠ .ldVxK x) : readsKeys i = false := by
  cases i with
  | skp x => exact absurd rfl (hskp x)
  | sknp x => exact absurd rfl (hsknp x)
  | ldVxK x => exact absurd rfl (hldVxK x)
  | _ => rfl

/-- Settles O24: an arbitrary vector put in place of KEYS is a change of the host interface that keeps results and RND,
so by `exec_mapPorts` only an instruction that reads KEYS could see it. -/
theorem keysReachOnlyKeyInstructions : Obligations.KeysReachOnlyKeyInstructions := by
  unfold Obligations.KeysReachOnlyKeyInstructions
  intro i s t keys hskp hsknp hldVxK ht
  have hk : readsKeys i = true → keys = s.ports.keys := by simp [readsKeys_eq_false hskp hsknp hldVxK]
  have h := exec_mapPorts (g := fun p => { p with keys := keys }) (fun _ _ => rfl) s i hk (fun _ => rfl)
  rw [ht] at h
  exact h

/-! ## What the stores leave in memory -/

/-- The write protection of R61 is the protected font region of R53. -/
theorem writeProtected_iff (s : State) (a : Nat) : s.writeProtected a = true ↔ Protected s a := by
  simp only [State.writeProtected, inFontRegion, fontBase, fontLimit, Protected, Bool.and_eq_true, decide_eq_true_eq,
    Bool.not_eq_true', and_assoc, Nat.lt_succ_iff]

theorem writeProtected_eq_false_iff (s : State) (a : Nat) : s.writeProtected a = false ↔ ¬ Protected s a := by
  rw [← writeProtected_iff, Bool.not_eq_true]

/-- Offsets below MEM_SIZE address distinct bytes, the wrap of R59 included. -/
theorem State.ea_inj (s : State) {j k : Nat} (hj : j < 4096) (hk : k < 4096) (h : s.ea j = s.ea k) : j = k := by
  simp only [State.ea, memSize] at h
  omega

/-- ALL A RUN OF MEMORY WRITES DOES: an address holds the byte of one of its writes, or it keeps its own because each
write to it was discarded (R61). -/
theorem foldl_memWrite_cases {α : Type} (addr : α → Nat) (val : α → Byte) (l : List α) (s : State) (a : Nat) :
    (∃ k ∈ l, addr k = a ∧ s.writeProtected a = false ∧
      (l.foldl (fun t k => t.memWrite (addr k) (val k)) s).memRead a = val k) ∨
    ((∀ k ∈ l, addr k = a → s.writeProtected a = true) ∧
      (l.foldl (fun t k => t.memWrite (addr k) (val k)) s).memRead a = s.memRead a) := by
  induction l generalizing s with
  | nil => exact .inr ⟨nofun, rfl⟩
  | cons j l ih =>
    rw [List.foldl_cons]
    obtain ⟨k, hk, haddr, hopen, hread⟩ | ⟨hkept, hread⟩ := ih (s.memWrite (addr j) (val j))
    · rw [State.writeProtected_memWrite] at hopen
      exact .inl ⟨k, List.mem_cons_of_mem _ hk, haddr, hopen, hread⟩
    · simp only [State.writeProtected_memWrite] at hkept
      rw [State.memRead_memWrite] at hread
      by_cases hj : a = addr j ∧ s.writeProtected (addr j) = false
      · obtain ⟨rfl, hopen⟩ := hj
        rw [if_pos ⟨rfl, hopen⟩] at hread
        exact .inl ⟨j, List.mem_cons_self, rfl, hopen, hread⟩
      · rw [if_neg hj] at hread
        refine .inr ⟨List.forall_mem_cons.2 ⟨?_, hkept⟩, hread⟩
        rintro rfl
        simpa using hj

/-- The digit that FX33 writes at EA(k) (R193). -/
def bcdDigit (v : Byte) : Nat → Byte
  | 0 => hundreds v
  | 1 => tens v
  | _ => ones v

/-- FX33 is a run of three writes. -/
theorem State.storeBcd_eq_foldl (s : State) (v : Byte) :
    s.storeBcd v = (List.range 3).foldl (fun t k => t.memWrite (s.ea k) (bcdDigit v k)) s := rfl

section

variable (s : State)

/-- FX33 leaves each digit whose byte is not protected (R193). -/
theorem State.memRead_storeBcd_ea (v : Byte) {k : Nat} (hk : k < 3) (hopen : s.writeProtected (s.ea k) = false) :
    (s.storeBcd v).memRead (s.ea k) = bcdDigit v k := by
  rw [State.storeBcd_eq_foldl]
  obtain ⟨j, hj, haddr, -, hread⟩ | ⟨hkept, -⟩ := foldl_memWrite_cases s.ea (bcdDigit v) (List.range 3) s (s.ea k)
  · have hj3 : j < 3 := List.mem_range.1 hj
    rw [hread, s.ea_inj (by omega) (by omega) haddr]
  · exact absurd (hkept k (List.mem_range.2 hk) rfl) (by simp [hopen])

/-- FX55 leaves each of V0..Vx whose byte is not protected (R194). -/
theorem State.memRead_storeRegs_ea (x : Reg) {k : Reg} (hk : k ≤ x) (hopen : s.writeProtected (s.ea k.val) = false) :
    (s.storeRegs x).memRead (s.ea k.val) = s.getV k := by
  unfold State.storeRegs
  obtain ⟨j, -, haddr, -, hread⟩ | ⟨hkept, -⟩ :=
    foldl_memWrite_cases (fun k : Reg => s.ea k.val) s.getV (regsUpTo x) s (s.ea k.val)
  · have hjk : j.val = k.val := s.ea_inj (by omega) (by omega) haddr
    rw [hread, Fin.ext hjk]
  · exact absurd (hkept k ((mem_regsUpTo x k).2 hk) rfl) (by simp [hopen])

@[simp] theorem State.storeBcd_pc (v : Byte) : (s.storeBcd v).pc = s.pc := by simp [State.storeBcd]

@[simp] theorem State.storeRegs_pc (x : Reg) : (s.storeRegs x).pc = s.pc :=
  (writes_storeRegs (P := fun _ => True) x fun _ _ => trivial).keeps.1

/-! ## The next fetch -/

/-- The word of two bytes, the first one high (R57). -/
theorem wordOfBytes_toNat (hi lo : Byte) : (wordOfBytes hi lo).toNat = hi.toNat * 256 + lo.toNat := by
  simp only [wordOfBytes, BitVec.toNat_ofNat]
  omega

/-- After an instruction has advanced, the next fetch reads the two bytes at the next address (R113, R120). -/
theorem State.fetchWord_advanced :
    s.advanced.fetchWord = wordOfBytes (s.memRead (nextAddress s)) (s.memRead (nextAddress s + 1)) := by
  unfold State.fetchWord
  rw [State.advanced_pc, npc_target]
  rfl

/-- A byte that memory holds when an instruction advances is fetched next, if it lies at the next address or one above
(R72). -/
theorem State.fetchWord_advanced_byte {u : State} (hpc : u.pc = s.pc) {a : Nat} {b : Byte} (hread : u.memRead a = b) :
    (a = nextAddress s → u.advanced.fetchWord.toNat / 256 = b.toNat) ∧
    (a = nextAddress s + 1 → u.advanced.fetchWord.toNat % 256 = b.toNat) := by
  have hnext : nextAddress u = nextAddress s := by simp only [nextAddress, hpc]
  rw [State.fetchWord_advanced, wordOfBytes_toNat, hnext]
  constructor <;> rintro rfl <;> rw [hread] <;> omega

end

/-- Settles O46: each store leaves its byte in memory, moves no PC before it advances, and so is read by the next
fetch. The excluded next address 0xFFF plays no part: no byte lies one above it. -/
theorem storedWordIsFetchedNext : Obligations.StoredWordIsFetchedNext := by
  unfold Obligations.StoredWordIsFetchedNext
  refine fun s t x _ => ⟨?registers, ?digits⟩
  case registers =>
    rintro ⟨⟩ k hk hopen
    have hread := s.memRead_storeRegs_ea x hk ((writeProtected_eq_false_iff _ _).2 hopen)
    exact s.fetchWord_advanced_byte (by simp) ((State.memRead_stepIndex _ x _).trans hread)
  case digits =>
    rintro ⟨⟩ k digit hdigit hopen
    obtain ⟨h100, h10, h1⟩ := digits_toNat (s.getV x)
    obtain ⟨hk, rfl⟩ : k < 3 ∧ (bcdDigit (s.getV x) k).toNat = digit := by
      obtain ⟨rfl, rfl⟩ | ⟨rfl, rfl⟩ | ⟨rfl, rfl⟩ := hdigit
      · exact ⟨by decide, h100⟩
      · exact ⟨by decide, h10⟩
      · exact ⟨by decide, h1⟩
    have hread := s.memRead_storeBcd_ea (s.getV x) hk ((writeProtected_eq_false_iff _ _).2 hopen)
    exact s.fetchWord_advanced_byte (s.storeBcd_pc _) hread

end Sys2Proof.Machine
end

section
/-! PROOFS for 30_encoding.md: decoding and encoding are inverse to each other (R82, R85), decoding agrees with the match
and mask columns of the opcode table (R87), and the INVALID words are those of R88. Both directions of the round trip go
through the fields of a word: what the fields of an encoded word are, and that encoding the fields of a word gives the
word back, once for each of the four forms NNN, X NN, X Y N and X with a fixed low byte. -/

namespace Sys2Proof

/-! ## The fields of an encoded word -/

/-- The class is one nibble (R81). -/
theorem fieldClass_lt (w : Nat) : fieldClass w < 16 := by
  have hclass := (field_values w).1
  omega

/-- The form NNN. -/
theorem fields_address {b nnn : Nat} (hb : b % 4096 = 0) (hnnn : nnn < 4096) :
    fieldClass (b + nnn) = b / 4096 % 16 ∧ fieldNNN (b + nnn) = nnn := by
  obtain ⟨hclass, -, -, -, -, hNNN, -⟩ := field_values (b + nnn)
  omega

/-- The form X NN. -/
theorem fields_encodeXNN {b : Nat} (hb : b % 4096 = 0) (x : Reg) (nn : Byte) :
    fieldClass (encodeXNN b x nn) = b / 4096 % 16 ∧ fieldX (encodeXNN b x nn) = x ∧ immNN (encodeXNN b x nn) = nn := by
  obtain ⟨hclass, hX, -, -, -, -, hNN⟩ := field_values (encodeXNN b x nn)
  refine ⟨?_, Fin.ext ?_, BitVec.eq_of_toNat_eq ?_⟩ <;> simp only [encodeXNN] at * <;> omega

/-- The form X Y N. -/
theorem fields_encodeXYN {b n : Nat} (hb : b % 4096 = 0) (hn : n < 16) (x y : Reg) :
    fieldClass (encodeXYN b x y n) = b / 4096 % 16 ∧ fieldX (encodeXYN b x y n) = x ∧
    fieldY (encodeXYN b x y n) = y ∧ fieldN (encodeXYN b x y n) = n := by
  obtain ⟨hclass, hX, hY, hN, -⟩ := field_values (encodeXYN b x y n)
  refine ⟨?_, Fin.ext ?_, Fin.ext ?_, ?_⟩ <;> simp only [encodeXYN] at * <;> omega

/-- The form X with a fixed low byte. -/
theorem fields_encodeX {b : Nat} (hb : b % 4096 < 256) (x : Reg) :
    fieldClass (encodeX b x) = b / 4096 % 16 ∧ fieldX (encodeX b x) = x ∧ fieldNN (encodeX b x) = b % 256 := by
  obtain ⟨hclass, hX, -, -, hNN, -⟩ := field_values (encodeX b x)
  refine ⟨?_, Fin.ext ?_, ?_⟩ <;> simp only [encodeX] at * <;> omega

/-! ## From an instruction to its word and back -/

/-- The decoder gives back the instruction, for each form of word by the fields of that form (R82, R85). -/
theorem decodeNat_encodeNat {i : Instr} (h : i.wellFormed = true) : decodeNat (encodeNat i) = .instr i := by
  cases i with
  | cls | ret => rfl
  | jp nnn | call nnn | ldI nnn | jpV0 nnn =>
    have hnnn : nnn < 4096 := of_decide_eq_true h
    simp [encodeNat, decodeNat, fields_address, hnnn]
  | seImm | sneImm | ldImm | addImm | rnd => simp [encodeNat, decodeNat, fields_encodeXNN]
  | drw x y n =>
    have hn : n < 16 := of_decide_eq_true h
    simp [encodeNat, decodeNat, fields_encodeXYN, hn]
  | seReg | sneReg => simp [encodeNat, decodeNat, decodeClass5, decodeClass9, fields_encodeXYN]
  | ldReg | orReg | andReg | xorReg | addReg | sub | shr | subn | shl =>
    simp [encodeNat, decodeNat, decodeClass8, fields_encodeXYN]
  | skp | sknp => simp [encodeNat, decodeNat, decodeClassE, fields_encodeX]
  | ldVxDt | ldVxK | ldDt | ldSt | addI | ldF | ldB | ldMemVx | ldVxMem =>
    simp [encodeNat, decodeNat, decodeClassF, fields_encodeX]

/-- A well-formed instruction fits in 16 bits (R80). -/
theorem encodeNat_lt {i : Instr} (h : i.wellFormed = true) : encodeNat i < 65536 := by
  cases i with
  | jp nnn | call nnn | ldI nnn | jpV0 nnn =>
    have hnnn : nnn < 4096 := of_decide_eq_true h
    simp only [encodeNat]
    omega
  | drw x y n =>
    have hn : n < 16 := of_decide_eq_true h
    simp only [encodeNat, encodeXYN]
    omega
  | _ =>
    simp only [encodeNat, encodeX, encodeXNN, encodeXYN]
    omega

/-- Settles O1: the word holds the whole of `encodeNat i`, and the decoder finds every field of it. -/
theorem decodeOfEncodeIsTheInstruction : Obligations.DecodeOfEncodeIsTheInstruction := by
  unfold Obligations.DecodeOfEncodeIsTheInstruction
  intro i h
  rw [decode, encode_toNat, Nat.mod_eq_of_lt (encodeNat_lt h), decodeNat_encodeNat h]

/-! ## From a word to its instruction and back -/

section

variable {w b : Nat} {i : Instr} (hw : w < 65536)

include hw

/-- The form NNN. -/
theorem address_of_fields (hb : fieldClass w * 4096 = b) : b + fieldNNN w = w := by
  obtain ⟨hclass, -, -, -, -, hNNN, -⟩ := field_values w
  omega

/-- The form X NN. -/
theorem encodeXNN_of_fields (hb : fieldClass w * 4096 = b) : encodeXNN b (fieldX w) (immNN w) = w := by
  obtain ⟨hclass, hX, -, -, -, -, hNN⟩ := field_values w
  simp only [encodeXNN, hX, hNN]
  omega

/-- The form X Y N. -/
theorem encodeXYN_of_fields {n : Nat} (hb : fieldClass w * 4096 = b) (hn : fieldN w = n) :
    encodeXYN b (fieldX w) (fieldY w) n = w := by
  obtain ⟨hclass, hX, hY, hN, -⟩ := field_values w
  simp only [encodeXYN, hX, hY]
  omega

/-- The form X with a fixed low byte. -/
theorem encodeX_of_fields (hb : fieldClass w * 4096 + fieldNN w = b) : encodeX b (fieldX w) = w := by
  obtain ⟨hclass, hX, -, -, hNN, -⟩ := field_values w
  simp only [encodeX, hX]
  omega

omit hw in
theorem addressFits_fieldNNN : addressFits (fieldNNN w) = true := by
  obtain ⟨-, -, -, -, -, hNNN, -⟩ := field_values w
  exact decide_eq_true (by omega)

omit hw in
theorem rowCountFits_fieldN : rowCountFits (fieldN w) = true := by
  obtain ⟨-, -, -, hN, -⟩ := field_values w
  exact decide_eq_true (by omega)

/-- Class 8, whose instructions have the form X Y N. -/
theorem encodeNat_of_decodeClass8 (hc : fieldClass w = 8) (h : decodeClass8 w = .instr i) :
    i.wellFormed = true ∧ encodeNat i = w := by
  unfold decodeClass8 at h
  split at h <;> cases h
  all_goals exact ⟨rfl, encodeXYN_of_fields hw (by omega) (by assumption)⟩

/-- Class E, whose instructions have the form X with a fixed low byte. -/
theorem encodeNat_of_decodeClassE (hc : fieldClass w = 14) (h : decodeClassE w = .instr i) :
    i.wellFormed = true ∧ encodeNat i = w := by
  unfold decodeClassE at h
  split_ifs at h <;> cases h
  all_goals exact ⟨rfl, encodeX_of_fields hw (by omega)⟩

/-- Class F, whose instructions have the form X with a fixed low byte. -/
theorem encodeNat_of_decodeClassF (hc : fieldClass w = 15) (h : decodeClassF w = .instr i) :
    i.wellFormed = true ∧ encodeNat i = w := by
  unfold decodeClassF at h
  split_ifs at h <;> cases h
  all_goals exact ⟨rfl, encodeX_of_fields hw (by omega)⟩

/-- A word that decodes is its instruction's own word (R87): the class gives the form, and no bit lies outside it.
The arm for class c is the case h_(c + 1). -/
theorem encodeNat_of_decodeNat (h : decodeNat w = .instr i) : i.wellFormed = true ∧ encodeNat i = w := by
  have hlt := fieldClass_lt w
  unfold decodeNat at h
  split at h
  case h_1 =>
    simp only [decodeClass0] at h
    split_ifs at h with h0E0 h0EE <;> cases h
    · exact ⟨rfl, h0E0.symm⟩
    · exact ⟨rfl, h0EE.symm⟩
  case h_2 hc | h_3 hc | h_11 hc | h_12 hc =>
    cases h
    exact ⟨addressFits_fieldNNN, address_of_fields hw (by omega)⟩
  case h_4 hc | h_5 hc | h_7 hc | h_8 hc | h_13 hc =>
    cases h
    exact ⟨rfl, encodeXNN_of_fields hw (by omega)⟩
  case h_6 hc | h_10 hc =>
    simp only [decodeClass5, decodeClass9] at h
    split_ifs at h with hN
    cases h
    exact ⟨rfl, encodeXYN_of_fields hw (by omega) hN⟩
  case h_14 hc =>
    cases h
    exact ⟨rowCountFits_fieldN, encodeXYN_of_fields hw (by omega) rfl⟩
  case h_9 hc => exact encodeNat_of_decodeClass8 hw hc h
  case h_15 hc => exact encodeNat_of_decodeClassE hw hc h
  case h_16 =>
    have hc : fieldClass w = 15 := by grind
    exact encodeNat_of_decodeClassF hw hc h

end

/-- Settles O2: the instruction is put together from fields that cover every bit of the word. -/
theorem decodedWordIsTheInstructionsWord : Obligations.DecodedWordIsTheInstructionsWord := by
  unfold Obligations.DecodedWordIsTheInstructionsWord
  intro w i h
  obtain ⟨hwf, hword⟩ := encodeNat_of_decodeNat w.isLt h
  exact ⟨hwf, by rw [encode, hword, BitVec.ofNat_toNat, BitVec.setWidth_eq]⟩

/-! ## The match and mask columns -/

/-- The rows of the table are those of the instructions. -/
theorem mem_opcodeTable_iff {row : OpcodeRow} : row ∈ opcodeTable ↔ ∃ i : Instr, i.row = row := by
  constructor
  · revert row
    simp [opcodeTable]
  · rintro ⟨i, rfl⟩
    cases i <;> simp [opcodeTable, Instr.row]

/-- The family EncodingRow as one statement: the word of a well-formed instruction matches its row (R87). -/
theorem encode_matches_row {i : Instr} (h : i.wellFormed = true) : (encode i).toNat &&& i.row.mask = i.row.mtch := by
  cases i with
  | cls => exact Laws.EncodingRow.cls h
  | ret => exact Laws.EncodingRow.ret h
  | jp nnn => exact Laws.EncodingRow.jp nnn h
  | call nnn => exact Laws.EncodingRow.call nnn h
  | seImm x nn => exact Laws.EncodingRow.seImm x nn h
  | sneImm x nn => exact Laws.EncodingRow.sneImm x nn h
  | seReg x y => exact Laws.EncodingRow.seReg x y h
  | ldImm x nn => exact Laws.EncodingRow.ldImm x nn h
  | addImm x nn => exact Laws.EncodingRow.addImm x nn h
  | ldReg x y => exact Laws.EncodingRow.ldReg x y h
  | orReg x y => exact Laws.EncodingRow.orReg x y h
  | andReg x y => exact Laws.EncodingRow.andReg x y h
  | xorReg x y => exact Laws.EncodingRow.xorReg x y h
  | addReg x y => exact Laws.EncodingRow.addReg x y h
  | sub x y => exact Laws.EncodingRow.sub x y h
  | shr x y => exact Laws.EncodingRow.shr x y h
  | subn x y => exact Laws.EncodingRow.subn x y h
  | shl x y => exact Laws.EncodingRow.shl x y h
  | sneReg x y => exact Laws.EncodingRow.sneReg x y h
  | ldI nnn => exact Laws.EncodingRow.ldI nnn h
  | jpV0 nnn => exact Laws.EncodingRow.jpV0 nnn h
  | rnd x nn => exact Laws.EncodingRow.rnd x nn h
  | drw x y n => exact Laws.EncodingRow.drw x y n h
  | skp x => exact Laws.EncodingRow.skp x h
  | sknp x => exact Laws.EncodingRow.sknp x h
  | ldVxDt x => exact Laws.EncodingRow.ldVxDt x h
  | ldVxK x => exact Laws.EncodingRow.ldVxK x h
  | ldDt x => exact Laws.EncodingRow.ldDt x h
  | ldSt x => exact Laws.EncodingRow.ldSt x h
  | addI x => exact Laws.EncodingRow.addI x h
  | ldF x => exact Laws.EncodingRow.ldF x h
  | ldB x => exact Laws.EncodingRow.ldB x h
  | ldMemVx x => exact Laws.EncodingRow.ldMemVx x h
  | ldVxMem x => exact Laws.EncodingRow.ldVxMem x h

section

variable {w m : Nat}

/-- What a match under the mask F000 says. -/
theorem field_of_classMask (h : w &&& 0xF000 = m) : fieldClass w = m / 4096 := by
  obtain ⟨hclass, -⟩ := field_values w
  rw [and_classMask] at h
  omega

/-- What a match under the mask F00F says. -/
theorem fields_of_nibbleMask (h : w &&& 0xF00F = m) : fieldClass w = m / 4096 ∧ fieldN w = m % 16 := by
  obtain ⟨hclass, -, -, hN, -⟩ := field_values w
  rw [and_nibbleMask] at h
  omega

/-- What a match under the mask F0FF says. -/
theorem fields_of_byteMask (h : w &&& 0xF0FF = m) : fieldClass w = m / 4096 ∧ fieldNN w = m % 256 := by
  obtain ⟨hclass, -, -, -, hNN, -⟩ := field_values w
  rw [and_byteMask] at h
  omega

/-- A word that matches the row of `j` decodes to an instruction of that row, with the operands of the word. -/
theorem decodeNat_of_matches_row (hw : w < 65536) (j : Instr) (h : w &&& j.row.mask = j.row.mtch) :
    ∃ i, decodeNat w = .instr i ∧ i.row = j.row := by
  cases j with
  | cls | ret =>
    simp only [Instr.row, and_wordMask, Nat.mod_eq_of_lt hw] at h
    subst h
    exact ⟨_, rfl, rfl⟩
  | jp | call | seImm | sneImm | ldImm | addImm | ldI | jpV0 | rnd | drw =>
    have hc := field_of_classMask h
    simp only [Instr.row, Nat.reduceDiv] at hc
    simp [decodeNat, hc, Instr.row]
  | seReg | ldReg | orReg | andReg | xorReg | addReg | sub | shr | subn | shl | sneReg =>
    obtain ⟨hc, hN⟩ := fields_of_nibbleMask h
    simp only [Instr.row, Nat.reduceDiv, Nat.reduceMod] at hc hN
    simp [decodeNat, decodeClass5, decodeClass8, decodeClass9, hc, hN, Instr.row]
  | skp | sknp | ldVxDt | ldVxK | ldDt | ldSt | addI | ldF | ldB | ldMemVx | ldVxMem =>
    obtain ⟨hc, hNN⟩ := fields_of_byteMask h
    simp only [Instr.row, Nat.reduceDiv, Nat.reduceMod] at hc hNN
    simp [decodeNat, decodeClassE, decodeClassF, hc, hNN, Instr.row]

end

/-- Settles O3: a matching row fixes the decoder's arm; a word that decodes is its instruction's own word (O2), and that
matches its row; so a word that matches no row does not decode. -/
theorem decodeMatchesTheOpcodeTable : Obligations.DecodeMatchesTheOpcodeTable := by
  unfold Obligations.DecodeMatchesTheOpcodeTable
  intro w
  have hrow : ∀ i, decode w = .instr i → i.row ∈ opcodeTable ∧ w.toNat &&& i.row.mask = i.row.mtch := by
    intro i h
    obtain ⟨hwf, rfl⟩ := decodedWordIsTheInstructionsWord w i h
    exact ⟨mem_opcodeTable_iff.2 ⟨i, rfl⟩, encode_matches_row hwf⟩
  refine ⟨?decodes, hrow, ?invalid⟩
  case decodes =>
    intro row hmem hmatch
    obtain ⟨j, rfl⟩ := mem_opcodeTable_iff.1 hmem
    exact decodeNat_of_matches_row w.isLt j hmatch
  case invalid =>
    intro hnone
    cases hd : decode w with
    | invalid why => exact ⟨why, rfl⟩
    | instr i =>
      obtain ⟨hmem, hmatch⟩ := hrow i hd
      exact absurd hmatch (hnone i.row hmem)

/-! ## The INVALID words -/

/-- One selector test of a decoder arm: the word is INVALID when the test fails and so does the rest. -/
theorem ite_instr_invalid_iff {p : Prop} [Decidable p] {i : Instr} {d : Decoded} :
    (∃ why, (if p then .instr i else d) = Decoded.invalid why) ↔ ¬ p ∧ ∃ why, d = .invalid why := by
  split_ifs with h <;> simp [h]

/-- Class 8: the low nibbles that select nothing (R88). -/
theorem decodeClass8_invalid_iff {w : Nat} :
    (∃ why, decodeClass8 w = .invalid why) ↔ fieldN w ∈ [0x8, 0x9, 0xA, 0xB, 0xC, 0xD, 0xF] := by
  have hlt : fieldN w < 16 := of_decide_eq_true rowCountFits_fieldN
  unfold decodeClass8
  interval_cases fieldN w <;> simp

/-- Settles O4: class by class, the selectors that no arm of the decoder takes; the ten classes that `decodeNat` reads
without a selector have no INVALID word. -/
theorem invalidWordsAreTheListedOnes : Obligations.InvalidWordsAreTheListedOnes := by
  unfold Obligations.InvalidWordsAreTheListedOnes
  intro w
  obtain ⟨hclass, -, -, hN, hNN, -⟩ := field_values w.toNat
  have hc : w.toNat / 4096 = fieldClass w.toNat := by omega
  simp only [hc, ← hN, ← hNN]
  have hlt := fieldClass_lt w.toNat
  unfold decode decodeNat
  split
  case h_1 hc => simp [hc, decodeClass0, ite_instr_invalid_iff]
  case h_6 hc => simp [hc, decodeClass5, ite_instr_invalid_iff]
  case h_9 hc => simpa [hc] using decodeClass8_invalid_iff
  case h_10 hc => simp [hc, decodeClass9, ite_instr_invalid_iff]
  case h_15 hc => simp [hc, decodeClassE, ite_instr_invalid_iff]
  case h_16 =>
    have hc : fieldClass w.toNat = 15 := by grind
    simp [hc, decodeClassF, ite_instr_invalid_iff]
  case h_2 hc | h_3 hc | h_4 hc | h_5 hc | h_7 hc | h_8 hc | h_11 hc | h_12 hc | h_13 hc | h_14 hc => simp [hc]

/-! ## Words written out by hand -/

/-- Settles O5: the decoder runs on sixteen fixed words. -/
theorem writtenOutWordsDecode : Obligations.WrittenOutWordsDecode := by
  unfold Obligations.WrittenOutWordsDecode
  decide

end Sys2Proof
end

section
/-! PROOFS for 40_instruction_cycle.md: a step on an EXEC runs the cycle in the accepted state (R110 to R117) or repeats
the latched fault (R124), it always answers a next state (R111), and NO_PROGRESS comes from FX0A alone (R122). How an
instruction can end is `exec_ends`, and how a cycle can end is `cycle_cases`. -/

namespace Sys2Proof.Machine

open Sys2Proof.Config

/-! ## The frames of the ends -/

section

variable (s : State)

/-- Writing the result changes nothing else (R270). -/
theorem onlyChanges_setResult (r : CommandResult) : OnlyChanges [.result] s (s.setResult r) := by
  intro c hc
  cases c with
  | result => simp at hc
  | _ => simp [Same]

/-- The sequential end changes PC and the result (R120). -/
theorem onlyChanges_advanced : OnlyChanges [.pc, .result] s s.advanced := by
  intro c hc
  cases c with
  | pc | result => simp at hc
  | _ => simp [Same]

/-- Fault entry answers the state that `Faulted` describes (R256). -/
theorem raiseFault_faulted (code : FaultCode) (word : Option Word) :
    ∃ t, raiseFault code word s = .next t ∧ Faulted s t code word := by
  refine ⟨(s.setCtrl (s.ctrl.faulted code s.pc word)).setResult (.fault code), rfl, ?_⟩
  refine ⟨rfl, rfl, rfl, rfl, rfl, rfl, rfl, rfl, ?frame⟩
  intro c hc
  cases c with
  | ctrl | result => simp at hc
  | _ => simp [Same]

end

/-! ## Every step answers -/

section

variable {i : Instr} {s t : State}

/-- Each way an instruction can end is a next state: fault entry is one too (R256). -/
theorem Ends.exists_next {o : Host.Outcome State Fault Refusal} (h : Ends i s o) : ∃ t, o = .next t := by
  cases h with
  | moved n hu => exact ⟨_, rfl⟩
  | stalled => exact ⟨_, rfl⟩
  | faulted word _ _ => exact ⟨_, rfl⟩

theorem exec_next (i : Instr) (s : State) : ∃ t, exec i s = .next t := (exec_ends i s).exists_next

/-- No instruction faults as the fetch does: its word was fetched (R258). -/
theorem Ends.result_ne_pcOutOfBounds (h : Ends i s (.next t)) : t.ports.result ≠ .fault .pcOutOfBounds := by
  cases h with
  | moved n hu => nofun
  | stalled => nofun
  | faulted word _ hcode => simp [hcode.2]

/-- A cycle that gets past the fetch answers, and not with the fetch's fault (R126, R258). -/
theorem cycle_next_of_inBounds (hpc : s.pcOutOfBounds = false) :
    ∃ t, cycle s = .next t ∧ t.ports.result ≠ .fault .pcOutOfBounds := by
  obtain ⟨hout, -⟩ | ⟨-, _, -, hcycle⟩ | ⟨-, i, -, hcycle⟩ := cycle_cases s
  · simp [hpc] at hout
  · rw [hcycle]
    obtain ⟨-, hinvalid⟩ | ⟨-, hinvalid⟩ := invalidWord_cases s s.fetchWord <;> rw [hinvalid]
    · exact ⟨_, rfl, nofun⟩
    · exact ⟨_, rfl, nofun⟩
  · obtain ⟨t, ht⟩ := exec_next i s
    exact ⟨t, hcycle.trans ht, (exec_ends_next ht).result_ne_pcOutOfBounds⟩

theorem cycle_of_outOfBounds (hpc : s.pcOutOfBounds = true) : cycle s = raiseFault .pcOutOfBounds none s := by
  simp [cycle, hpc]

theorem cycle_next (s : State) : ∃ t, cycle s = .next t := by
  cases hpc : s.pcOutOfBounds with
  | true => exact ⟨_, cycle_of_outOfBounds hpc⟩
  | false =>
    obtain ⟨t, ht, -⟩ := cycle_next_of_inBounds hpc
    exact ⟨t, ht⟩

/-- Each of the four commands answers a next state (R110). -/
theorem runCommand_next (c : Command) (s : State) : ∃ t, runCommand c s = .next t := by
  cases c with
  | reset => exact ⟨_, rfl⟩
  | load bytes => exact ⟨_, rfl⟩
  | tick => exact ⟨_, rfl⟩
  | exec keys rnd =>
    obtain ⟨-, hexec⟩ | ⟨-, hexec⟩ := execCommand_cases s keys rnd
    · exact ⟨_, hexec⟩
    · obtain ⟨t, ht⟩ := cycle_next (s.sample keys rnd).markStarted
      exact ⟨t, hexec.trans ht⟩

end

/-- Settles O7: an instruction ends in one of the ways of `Ends`, and a step runs one of the four commands. -/
theorem everyStepAnswersANextState : Obligations.EveryStepAnswersANextState := by
  unfold Obligations.EveryStepAnswersANextState
  exact ⟨exec_next, fun s => runCommand_next s.nextCommand s.issued⟩

/-! ## A step on an EXEC -/

section

variable {s : State} {keys : BitVec 16} {rnd : Byte} {rest : List Command}

/-- A step takes the EXEC off the script and runs it (R110). -/
theorem step_exec (hscript : s.ports.script = .exec keys rnd :: rest) :
    step s = execCommand keys rnd (s.setPorts { s.ports with script := rest }) := by
  simp [step, runNext, runCommand, State.nextCommand, State.issued, hscript]

/-- With the script empty a step is an EXEC with the free inputs, which it counts (log 1, log 2). -/
theorem step_free (hscript : s.ports.script = []) :
    step s = execCommand (freeKeys s.ports.draws) (freeRnd s.ports.draws)
      (s.setPorts { s.ports with draws := s.ports.draws + 1 }) := by
  simp [step, runNext, runCommand, State.nextCommand, State.issued, hscript]

/-- An EXEC in RUN runs the cycle in the accepted state (R112, R115). -/
theorem execCommand_of_running (hrun : s.ctrl.halted = false) (hscript : s.ports.script = rest) :
    execCommand keys rnd s = cycle (accepted s keys rnd rest) := by
  have hexec : execCommand keys rnd s = cycle (s.sample keys rnd).markStarted := by simp [execCommand, hrun]
  subst hscript
  exact hexec

theorem step_exec_of_running (hscript : s.ports.script = .exec keys rnd :: rest) (hrun : s.ctrl.halted = false) :
    step s = cycle (accepted s keys rnd rest) :=
  (step_exec hscript).trans (execCommand_of_running (s := s.setPorts { s.ports with script := rest }) hrun rfl)

theorem step_free_of_running (hscript : s.ports.script = []) (hrun : s.ctrl.halted = false) :
    step s = cycle (accepted { s with ports := { s.ports with draws := s.ports.draws + 1 } }
      (freeKeys s.ports.draws) (freeRnd s.ports.draws) []) :=
  (step_free hscript).trans (execCommand_of_running hrun hscript)

/-- The fetch is in bounds when both bytes of the instruction are in memory (R113). -/
theorem State.pcOutOfBounds_eq_false (hpc : s.pc.toNat + 1 ≤ 0xFFF) : s.pcOutOfBounds = false :=
  decide_eq_false (Nat.not_lt.2 hpc)

/-- Past the fetch and a decode to an instruction, the cycle is that instruction (R116, R117). -/
theorem cycle_of_instr {i : Instr} (hpc : s.pc.toNat + 1 ≤ 0xFFF) (hdecode : decode s.fetchWord = .instr i) :
    cycle s = exec i s := by
  simp [cycle, State.pcOutOfBounds_eq_false hpc, hdecode]

/-- Past the fetch of an INVALID word, the policy decides (R118). -/
theorem cycle_of_invalid {why : InvalidWord} (hpc : s.pc.toNat + 1 ≤ 0xFFF)
    (hdecode : decode s.fetchWord = .invalid why) : cycle s = invalidWord s.fetchWord s := by
  simp [cycle, State.pcOutOfBounds_eq_false hpc, hdecode]

end

/-- Settles O8: the fetch compares the address of the second byte with 0xFFF; past it no cycle ends in that fault. -/
theorem fetchFaultsOnlyAtTheTopAddress : Obligations.FetchFaultsOnlyAtTheTopAddress := by
  unfold Obligations.FetchFaultsOnlyAtTheTopAddress
  intro s keys rnd rest hscript hrun hrange
  rw [step_exec_of_running hscript hrun]
  refine ⟨fun htop => ?atTop, fun hbelow => ?below⟩
  case atTop =>
    have hout : (accepted s keys rnd rest).pcOutOfBounds = true :=
      decide_eq_true (show 0xFFF < s.pc.toNat + 1 by omega)
    rw [cycle_of_outOfBounds hout]
    exact raiseFault_faulted _ _ _
  case below =>
    have hin : (accepted s keys rnd rest).pcOutOfBounds = false :=
      State.pcOutOfBounds_eq_false (show s.pc.toNat + 1 ≤ 0xFFF by omega)
    obtain ⟨t, ht, hresult⟩ := cycle_next_of_inBounds hin
    exact ⟨t, ht, hresult, wordOfBytes_toNat _ _⟩

/-- Settles O9: the accepted state fetches the same word, and the policy decides between fault entry and the sequential
end. -/
theorem invalidWordFollowsThePolicy : Obligations.InvalidWordFollowsThePolicy := by
  unfold Obligations.InvalidWordFollowsThePolicy
  intro s keys rnd rest why hscript hrun hpc hdecode
  have hcycle : cycle (accepted s keys rnd rest) = invalidWord s.fetchWord (accepted s keys rnd rest) :=
    cycle_of_invalid hpc hdecode
  rw [step_exec_of_running hscript hrun, hcycle]
  obtain ⟨hpolicy, hword⟩ | ⟨hpolicy, hword⟩ := invalidWord_cases (accepted s keys rnd rest) s.fetchWord <;>
    rw [hword]
  · refine ⟨fun _ => raiseFault_faulted _ _ _, fun hignore => ?_⟩
    exact absurd (hpolicy.symm.trans hignore) (by decide)
  · refine ⟨fun hfatal => absurd (hpolicy.symm.trans hfatal) (by decide), fun _ => ?_⟩
    exact ⟨_, rfl, npc_target _, rfl, onlyChanges_advanced _⟩

/-- Settles O6: the decoder over the two bytes at PC is the decoder of the word fetched there. -/
theorem stepRunsTheDecodedInstruction : Obligations.StepRunsTheDecodedInstruction := by
  unfold Obligations.StepRunsTheDecodedInstruction
  intro s i hrun hpc hbytes
  have hdecode : decode s.fetchWord = .instr i := congrArg Prod.fst hbytes
  refine ⟨fun keys rnd rest hscript => ?scripted, fun hscript => ?free⟩
  case scripted => exact (step_exec_of_running hscript hrun).trans (cycle_of_instr hpc hdecode)
  case free => exact (step_free_of_running hscript hrun).trans (cycle_of_instr hpc hdecode)

/-- Settles O11: in HALTED an EXEC leaves the script without it and the latched fault as the result. -/
theorem haltedExecChangesNothing : Obligations.HaltedExecChangesNothing := by
  unfold Obligations.HaltedExecChangesNothing
  intro s keys rnd rest hscript hhalted
  obtain ⟨-, hexec⟩ | ⟨hrun, -⟩ := execCommand_cases (s.setPorts { s.ports with script := rest }) keys rnd
  · refine ⟨_, (step_exec hscript).trans hexec, rfl, rfl, ?frame⟩
    intro c hc
    cases c with
    | schedule | result => simp at hc
    | _ => simp [Same]
  · exact absurd (hrun.symm.trans hhalted) (by decide)

/-! ## NO_PROGRESS -/

section

variable {i : Instr} {s t : State}

/-- There is no lowest pressed key exactly when no key is pressed (R233). -/
theorem State.lowestKey?_eq_none_iff : s.lowestKey? = none ↔ s.ports.keys = 0 := by
  simp only [State.lowestKey?, List.find?_eq_none, List.mem_range, State.key]
  constructor
  · intro hup
    exact BitVec.eq_of_getLsbD_eq fun k hk => by simpa using hup k hk
  · intro hkeys k _
    simp [hkeys]

/-- The one end with NO_PROGRESS is the stay update (R122). -/
theorem Ends.eq_stalled (h : Ends i s (.next t)) (hresult : t.ports.result = .noProgress) : t = s.stalled := by
  cases h with
  | moved n hu => cases hresult
  | stalled => rfl
  | faulted word _ _ => cases hresult

/-- FX0A makes no progress exactly when no key is pressed (R233). -/
theorem execLdVxK_noProgress_iff {x : Reg} (ht : execLdVxK x s = .next t) :
    t.ports.result = .noProgress ↔ s.ports.keys = 0 := by
  rw [← State.lowestKey?_eq_none_iff]
  unfold execLdVxK at ht
  cases hkey : s.lowestKey? with
  | none => rw [hkey] at ht; cases ht; simp
  | some k => rw [hkey] at ht; cases ht; simp

theorem execRet_result_ne_noProgress (ht : execRet s = .next t) : t.ports.result ≠ .noProgress := by
  unfold execRet at ht
  obtain ⟨-, hpop⟩ | ⟨_, -, hpop⟩ := s.pop?_cases <;> rw [hpop] at ht <;> cases ht <;> nofun

theorem execCall_result_ne_noProgress {nnn : Nat} (ht : execCall nnn s = .next t) :
    t.ports.result ≠ .noProgress := by
  unfold execCall at ht
  obtain ⟨-, hpush⟩ | ⟨_, hpush⟩ := s.push?_cases s.npc <;> rw [hpush] at ht <;> cases ht <;> nofun

/-- RET and CALL move PC or fault, and all but FX0A of the others move PC in every state (R120, R122). -/
theorem exec_result_ne_noProgress (hi : ∀ x, i ≠ .ldVxK x) (ht : exec i s = .next t) :
    t.ports.result ≠ .noProgress := by
  cases i with
  | ldVxK x => exact absurd rfl (hi x)
  | ret => exact execRet_result_ne_noProgress ht
  | call nnn => exact execCall_result_ne_noProgress ht
  | _ => cases ht; nofun

theorem exec_noProgress_iff (ht : exec i s = .next t) :
    t.ports.result = .noProgress ↔ (∃ x, i = .ldVxK x) ∧ s.ports.keys = 0 := by
  by_cases hi : ∃ x, i = .ldVxK x
  · obtain ⟨x, rfl⟩ := hi
    simp [execLdVxK_noProgress_iff ht]
  · simp [hi, exec_result_ne_noProgress (not_exists.1 hi) ht]

end

/-- Settles O18: only FX0A can end with the stay update, which writes the result alone. -/
theorem onlyWaitForKeyMakesNoProgress : Obligations.OnlyWaitForKeyMakesNoProgress := by
  unfold Obligations.OnlyWaitForKeyMakesNoProgress
  intro i s t ht
  refine ⟨exec_noProgress_iff ht, fun hresult => ?frame⟩
  rw [(exec_ends_next ht).eq_stalled hresult]
  exact onlyChanges_setResult s .noProgress

end Sys2Proof.Machine
end

section
/-! PROOFS for 41_control_flow.md (R140 to R148). An instruction that writes pieces of the state and then moves PC
completes, with the frame that `Writes.same` gives; what RET and CALL do is said once for each value of SP. -/

namespace Sys2Proof.Machine

/-! ## Instructions that complete -/

section

variable {i : Instr} {s u : State} {named : List Component}

/-- An instruction that writes only named pieces and then moves PC completes (R120). -/
theorem completes_of_jumpTo {n target : Nat} {post : State → Prop} (hexec : exec i s = jumpTo n u)
    (hwrites : Writes (· ∈ named) s u) (htarget : n % 4096 = target) (hpost : post (u.setPc n).committed) :
    Completes i s target named post := by
  refine ⟨_, hexec, (mask12_toNat n).trans htarget, rfl, ?frame, hpost⟩
  intro c hc
  have hsame := hwrites.same c fun hnamed => hc (.tail _ (.tail _ hnamed))
  cases c with
  | pc | result => simp at hc
  | _ => exact hsame

/-- An instruction that writes only named pieces and then advances completes at the next address (R117, R120). -/
theorem completes_of_advance {post : State → Prop} (hexec : exec i s = advance u)
    (hwrites : Writes (· ∈ named) s u) (hpost : post u.advanced) : Completes i s (nextAddress s) named post := by
  obtain ⟨hpc, -⟩ := hwrites.keeps
  have htarget : u.npc % 4096 = nextAddress s := by simp [State.npc, nextAddress, hpc]
  exact completes_of_jumpTo (n := u.npc) hexec hwrites htarget hpost

/-- An instruction that only skips completes at the target its condition selects (R120). -/
theorem completes_of_skipIf {c : Bool} (hexec : exec i s = skipIf c s) :
    Completes i s (if c then skipAddress s else nextAddress s) [] fun _ => True := by
  refine completes_of_jumpTo hexec .start ?_ trivial
  cases c <;> simp [State.npc, skipAddress, nextAddress]

/-- The skip on equality. -/
theorem completes_of_skipIf_eq {a b : Byte} (hexec : exec i s = skipIf (a == b) s) :
    Completes i s (if a = b then skipAddress s else nextAddress s) [] fun _ => True := by
  simpa using completes_of_skipIf hexec

/-- The skip on inequality. -/
theorem completes_of_skipIf_ne {a b : Byte} (hexec : exec i s = skipIf (a != b) s) :
    Completes i s (if a = b then nextAddress s else skipAddress s) [] fun _ => True := by
  simpa using completes_of_skipIf hexec

end

/-! ## RET and CALL for each value of SP -/

section

variable {s : State}

/-- RET with an entry on the stack jumps to the topmost one and leaves it in its slot (R141). -/
theorem exec_ret_of_entry {k : Fin 16} (hsp : s.sp.val = k.val + 1) :
    exec .ret s = jumpTo s.stack[k].toNat { s with sp := k.castSucc } := by
  obtain ⟨hempty, -⟩ | ⟨_, -, hpop⟩ := s.pop?_cases
  · omega
  · have htop : s.sp.val - 1 = k.val := by omega
    simp only [htop] at hpop
    simp [exec, execRet, hpop, Fin.castSucc, Fin.castAdd, Fin.castLE]

/-- RET on an empty stack raises STACK_UNDERFLOW (R141, R253). -/
theorem exec_ret_of_empty (hsp : s.sp.val = 0) :
    exec .ret s = raiseFault .stackUnderflow (some (encode .ret)) s := by
  obtain ⟨-, hpop⟩ | ⟨_, hentry, -⟩ := s.pop?_cases
  · simp [exec, execRet, hpop]
  · exact absurd hsp hentry

/-- CALL with room on the stack puts the next address in the first free slot and jumps (R143). -/
theorem exec_call_of_room (nnn : Nat) {k : Fin 16} (hsp : s.sp.val = k.val) :
    exec (.call nnn) s = jumpTo nnn { s with stack := s.stack.set k (mask12 s.npc), sp := k.succ } := by
  obtain ⟨hfull, -⟩ | ⟨_, hpush⟩ := s.push?_cases s.npc
  · omega
  · simp only [hsp] at hpush
    simp [exec, execCall, hpush, Fin.succ]

/-- CALL on a full stack raises STACK_OVERFLOW (R143, R254). -/
theorem exec_call_of_full (nnn : Nat) (hsp : s.sp.val = 16) :
    exec (.call nnn) s = raiseFault .stackOverflow (some (encode (.call nnn))) s := by
  obtain ⟨-, hpush⟩ | ⟨hroom, -⟩ := s.push?_cases s.npc
  · simp [exec, execCall, hpush]
  · omega

end

/-- Settles O28: RET jumps to the topmost entry after writing SP alone, or is fault entry. -/
theorem retPopsOrUnderflows : Obligations.RetPopsOrUnderflows := by
  unfold Obligations.RetPopsOrUnderflows
  refine ⟨rfl, fun s k hsp => ?entry, fun s hsp => ?empty⟩
  case entry => exact completes_of_jumpTo (exec_ret_of_entry hsp) (.setSp .start (by simp) _) rfl rfl
  case empty =>
    rw [exec_ret_of_empty hsp]
    exact raiseFault_faulted s _ _

/-- Settles O30: CALL jumps after writing the first free slot and SP, or is fault entry. -/
theorem callPushesOrOverflows : Obligations.CallPushesOrOverflows := by
  unfold Obligations.CallPushesOrOverflows
  intro s nnn hnnn
  refine ⟨rfl, fun k hsp => ?room, fun hsp => ?full⟩
  case room =>
    have hwrites : Writes (· ∈ [.sp, .slot k]) s { s with stack := s.stack.set k (mask12 s.npc), sp := k.succ } :=
      (Writes.start.setSlot (by simp) s.npc).setSp (by simp) k.succ
    refine completes_of_jumpTo (exec_call_of_room nnn hsp) hwrites (Nat.mod_eq_of_lt hnnn) ⟨?_, rfl⟩
    simpa [nextAddress] using npc_target s
  case full =>
    rw [exec_call_of_full nnn hsp]
    exact raiseFault_faulted s _ _

/-- Settles O31: the slot that the CALL fills with the next address is the one that the RET jumps to. -/
theorem callThenRetResumesAfterTheCall : Obligations.CallThenRetResumesAfterTheCall := by
  unfold Obligations.CallThenRetResumesAfterTheCall
  intro s t u w nnn hroom hcall husp hustack hret
  obtain ⟨k, hk⟩ : ∃ k : Fin 16, s.sp.val = k.val := ⟨⟨s.sp.val, hroom⟩, rfl⟩
  rw [exec_call_of_room nnn hk] at hcall
  cases hcall
  have hentry : u.sp.val = k.val + 1 := by rw [husp]; rfl
  have hslot : u.stack[k] = mask12 s.npc := by simp [hustack]
  rw [exec_ret_of_entry hentry, hslot] at hret
  cases hret
  refine ⟨?pc, Fin.ext hk.symm, rfl⟩
  case pc => simp [State.npc, nextAddress]

/-- Settles O27: CLS writes the cleared framebuffer and advances. -/
theorem clsClearsTheScreen : Obligations.ClsClearsTheScreen := by
  unfold Obligations.ClsClearsTheScreen
  refine ⟨rfl, fun s => ?_⟩
  exact completes_of_advance (u := s.setFb Framebuffer.clear) rfl (.setFb .start (by simp) _)
    Framebuffer.pixel_clear

/-- Settles O29: JP writes nothing but PC, and the mask keeps a 12-bit address. -/
theorem jpSetsPcToTheAddress : Obligations.JpSetsPcToTheAddress := by
  unfold Obligations.JpSetsPcToTheAddress
  exact fun s nnn => ⟨rfl, fun hnnn => completes_of_jumpTo rfl .start (Nat.mod_eq_of_lt hnnn) trivial⟩

/-- Settles O32: both are skips on the comparison of Vx with NN. -/
theorem skipsOnImmediate : Obligations.SkipsOnImmediate := by
  unfold Obligations.SkipsOnImmediate
  exact fun s x nn => ⟨rfl, rfl, completes_of_skipIf_eq rfl, completes_of_skipIf_ne rfl⟩

/-- Settles O33: both are skips on the comparison of Vx with Vy. -/
theorem skipsOnRegisters : Obligations.SkipsOnRegisters := by
  unfold Obligations.SkipsOnRegisters
  exact fun s x y => ⟨rfl, rfl, completes_of_skipIf_eq rfl, completes_of_skipIf_ne rfl⟩

/-- The register named by the top nibble of a jump's address (R82). -/
theorem jumpRegister_eq {nnn : Nat} {x : Reg} (hx : nnn / 256 = x.val) : jumpRegister nnn = x := by
  obtain ⟨-, hfield, -⟩ := field_values nnn
  have hval : (jumpRegister nnn).val = nnn / 256 % 16 := hfield
  exact Fin.ext (by omega)

/-- Settles O34: the jump adds the register that JUMP_OFFSET_USES_VX selects, and the write of PC masks the sum. -/
theorem jpV0AddsTheOffset : Obligations.JpV0AddsTheOffset := by
  unfold Obligations.JpV0AddsTheOffset
  intro s nnn _
  have hjump : Completes (.jpV0 nnn) s ((nnn + (s.jumpOffset nnn).toNat) % 4096) [] fun _ => True :=
    completes_of_jumpTo rfl .start rfl trivial
  refine ⟨rfl, fun hv0 => ?v0, fun x hvx hx => ?vx⟩
  case v0 => simpa [State.jumpOffset, hv0] using hjump
  case vx => simpa [State.jumpOffset, hvx, jumpRegister_eq hx] using hjump

end Sys2Proof.Machine
end

section
/-! PROOFS for 42_register_immediate.md (R160 to R177). An instruction of this family writes one register, or a result
and its flag, and then advances: that it completes, with its frame, is said once for each of the two forms. What is left
of each instruction is the value that its ALU operation computes. -/

namespace Sys2Proof.Machine

/-! ## The values of the ALU operations -/

section

variable (a b : Byte) (k : Nat)

@[simp] theorem or8_getLsbD : (or8 a b).getLsbD k = (a.getLsbD k || b.getLsbD k) := BitVec.getLsbD_or

@[simp] theorem and8_getLsbD : (and8 a b).getLsbD k = (a.getLsbD k && b.getLsbD k) := BitVec.getLsbD_and

@[simp] theorem xor8_getLsbD : (xor8 a b).getLsbD k = (a.getLsbD k ^^ b.getLsbD k) := BitVec.getLsbD_xor

/-- A flag as the number of the condition it records (R22). -/
theorem flag_toNat_eq_ite {flag : Bool} {P : Prop} [Decidable P] (h : flag = true ↔ P) :
    flag.toNat = if P then 1 else 0 := by
  cases flag with
  | true => rw [if_pos (h.1 rfl)]; rfl
  | false => rw [if_neg fun hP => Bool.noConfusion (h.2 hP)]; rfl

/-- The carry (R161). -/
theorem add8_carry_toNat : (add8 a b).2.toNat = if a.toNat + b.toNat ≥ 256 then 1 else 0 :=
  flag_toNat_eq_ite (add8_spec a b).2

/-- No borrow (R162). -/
theorem sub8_noBorrow_toNat : (sub8 a b).2.toNat = if a.toNat ≥ b.toNat then 1 else 0 :=
  flag_toNat_eq_ite (sub8_spec a b).2

/-- The bit that a right shift moves out is the remainder (R164). -/
theorem shr8_bitOut_toNat : (shr8 a).2.toNat = a.toNat % 2 := by
  have hbit : (shr8 a).2.toNat = a.toNat / 2 ^ 0 % 2 := Nat.toNat_testBit a.toNat 0
  omega

/-- The bit that a left shift moves out is the top bit of the byte (R164). -/
theorem shl8_bitOut_toNat : (shl8 a).2.toNat = a.toNat / 128 := by
  have hbit : (shl8 a).2.toNat = a.toNat / 2 ^ 7 % 2 := Nat.toNat_testBit a.toNat 7
  have hbyte := a.isLt
  omega

end

/-! ## The two forms of the family -/

section

variable (s : State) (p : Byte × Bool)

/-- VF holds the flag, also where it is the result's register (R165). -/
theorem State.getV_setResultAndFlag_flag (x : Reg) :
    (s.setResultAndFlag x p).getV 15 = if p.2 then 1 else 0 :=
  (s.getV_setResultAndFlag x 15 p).trans (if_pos rfl)

/-- A register other than VF holds the result (R165). -/
theorem State.getV_setResultAndFlag_result {x : Reg} (hx : x ≠ 15) : (s.setResultAndFlag x p).getV x = p.1 :=
  ((s.getV_setResultAndFlag x x p).trans (if_neg hx)).trans (if_pos rfl)

end

section

variable {i : Instr} {s : State} {x : Reg}

/-- An instruction that writes one register and advances completes, whatever is said of that register's new value. -/
theorem completes_of_setV {b : Byte} {post : State → Prop} (hexec : exec i s = advance (s.setV x b))
    (hpost : ∀ t : State, t.getV x = b → post t) : Completes i s (nextAddress s) [.v x] post :=
  completes_of_advance hexec (.setV .start (by simp) b) (hpost _ (by simp))

/-- An instruction that writes a result and then its flag, and advances, completes with the flag in VF and the result in
its register, unless that is VF (R165). -/
theorem completes_of_setResultAndFlag {p : Byte × Bool} {flag result : Nat}
    (hexec : exec i s = advance (s.setResultAndFlag x p)) (hflag : p.2.toNat = flag) (hresult : p.1.toNat = result) :
    Completes i s (nextAddress s) [.v x, .v 15] fun t =>
      (t.getV 15).toNat = flag ∧ (x ≠ 15 → (t.getV x).toNat = result) := by
  have hwrites : Writes (· ∈ [.v x, .v 15]) s (s.setResultAndFlag x p) :=
    Writes.start.setResultAndFlag (by simp) (by simp [regF]) p
  refine completes_of_advance hexec hwrites ⟨?flag, fun hx => ?result⟩
  case flag =>
    rw [State.getV_advanced, State.getV_setResultAndFlag_flag, ← hflag]
    cases p.2 <;> rfl
  case result => rw [State.getV_advanced, State.getV_setResultAndFlag_result s p hx, hresult]

end

/-! ## The instructions -/

/-- Settles O35: both write one register and advance. -/
theorem loadsIntoARegister : Obligations.LoadsIntoARegister := by
  unfold Obligations.LoadsIntoARegister
  exact fun s x y nn => ⟨rfl, rfl, completes_of_setV rfl fun _ ht => ht, completes_of_setV rfl fun _ ht => ht⟩

/-- Settles O36: Vx takes the sum of ADD8, and its carry is dropped. -/
theorem addImmediateWrapsWithoutFlag : Obligations.AddImmediateWrapsWithoutFlag := by
  unfold Obligations.AddImmediateWrapsWithoutFlag
  intro s x nn
  obtain ⟨hsum, -⟩ := add8_spec (s.getV x) nn
  exact ⟨rfl, completes_of_setV rfl fun t ht => ht ▸ hsum⟩

/-- Settles O37: Vx alone is written, with the operation taken on each bit. -/
theorem logicOperationsWriteNoFlag : Obligations.LogicOperationsWriteNoFlag := by
  unfold Obligations.LogicOperationsWriteNoFlag
  refine fun s x y => ⟨rfl, rfl, rfl, ?or, ?and, ?xor⟩
  case or => exact completes_of_setV rfl fun t ht => ht ▸ or8_getLsbD _ _
  case and => exact completes_of_setV rfl fun t ht => ht ▸ and8_getLsbD _ _
  case xor => exact completes_of_setV rfl fun t ht => ht ▸ xor8_getLsbD _ _

/-- Settles O38: the result and the flag are the sum and the carry of ADD8. -/
theorem addRegistersSetsCarry : Obligations.AddRegistersSetsCarry := by
  unfold Obligations.AddRegistersSetsCarry
  intro s x y
  obtain ⟨hsum, -⟩ := add8_spec (s.getV x) (s.getV y)
  exact ⟨rfl, completes_of_setResultAndFlag rfl (add8_carry_toNat _ _) hsum⟩

/-- Settles O39: the two instructions are SUB8 on Vx and Vy in either order. -/
theorem subtractionsSetNoBorrow : Obligations.SubtractionsSetNoBorrow := by
  unfold Obligations.SubtractionsSetNoBorrow
  intro s x y
  obtain ⟨hsub, -⟩ := sub8_spec (s.getV x) (s.getV y)
  obtain ⟨hsubn, -⟩ := sub8_spec (s.getV y) (s.getV x)
  refine ⟨rfl, rfl, ?sub, ?subn⟩
  case sub => exact completes_of_setResultAndFlag rfl (sub8_noBorrow_toNat _ _) hsub
  case subn => exact completes_of_setResultAndFlag rfl (sub8_noBorrow_toNat _ _) hsubn

/-- Settles O40: the byte that SHIFT_USES_VY selects is the operand of SHR8 and SHL8. -/
theorem shiftsMoveOneBitIntoVF : Obligations.ShiftsMoveOneBitIntoVF := by
  unfold Obligations.ShiftsMoveOneBitIntoVF
  intro s x y src hsrc
  have hsource : src = s.shiftSource x y := hsrc
  rw [hsource]
  obtain ⟨hshr, -⟩ := shr8_spec (s.shiftSource x y)
  obtain ⟨hshl, -⟩ := shl8_spec (s.shiftSource x y)
  refine ⟨rfl, rfl, ?shr, ?shl⟩
  case shr => exact completes_of_setResultAndFlag rfl (shr8_bitOut_toNat _) hshr
  case shl => exact completes_of_setResultAndFlag rfl (shl8_bitOut_toNat _) hshl

/-- Settles O41: Vx alone is written, with AND8 of the draw and NN. -/
theorem rndMasksTheDraw : Obligations.RndMasksTheDraw := by
  unfold Obligations.RndMasksTheDraw
  exact fun s x nn => ⟨rfl, completes_of_setV rfl fun t ht => ht ▸ and8_getLsbD _ _⟩

end Sys2Proof.Machine
end

section
/-! PROOFS for 43_memory_index.md (R189 to R195). FX55 and FX33 are runs of memory writes and FX65 is a run of register
writes: what such a run leaves is said once for each kind. The move of I that FX55 and FX65 share is `stepIndex`. -/

namespace Sys2Proof.Machine

/-! ## The index register -/

section

variable {s u : State}

/-- An instruction that sets I and advances completes, with I masked to 12 bits (R25). -/
theorem completes_of_setI {i : Instr} {n index : Nat} (hexec : exec i s = advance (s.setI n))
    (hindex : n % 4096 = index) : Completes i s (nextAddress s) [.i] fun t => t.i.toNat = index :=
  completes_of_advance hexec (.setI .start (by simp) n) ((mask12_toNat n).trans hindex)

/-- Where I and the parameters are still those of `s`, `stepIndex` keeps I or moves it past EA(X), as
LOAD_STORE_INCREMENTS_I says (R194, R195). -/
theorem State.stepIndex_i_cases (hi : u.i = s.i) (hcfg : u.cfg = s.cfg) (x : Reg) :
    (s.cfg.loadStoreIncrementsI = false → (u.stepIndex x).i = s.i) ∧
    (s.cfg.loadStoreIncrementsI = true → (u.stepIndex x).i.toNat = (s.i.toNat + x.val + 1) % 4096) := by
  rw [State.stepIndex_i, hi, hcfg]
  constructor <;> intro hinc <;> simp [hinc]

end

section

variable (s : State)

/-! ## The stores -/

/-- A run of memory writes leaves a protected byte (R53, R61). -/
theorem memRead_foldl_memWrite_of_protected {α : Type} (addr : α → Nat) (val : α → Byte) (l : List α) {a : Nat}
    (ha : Protected s a) : (l.foldl (fun t k => t.memWrite (addr k) (val k)) s).memRead a = s.memRead a := by
  obtain ⟨-, -, -, hopen, -⟩ | ⟨-, hread⟩ := foldl_memWrite_cases addr val l s a
  · exact absurd ha ((writeProtected_eq_false_iff s a).1 hopen)
  · exact hread

/-- FX33 leaves a protected byte (R193). -/
theorem State.memRead_storeBcd_of_protected (v : Byte) {a : Nat} (ha : Protected s a) :
    (s.storeBcd v).memRead a = s.memRead a :=
  memRead_foldl_memWrite_of_protected s s.ea (bcdDigit v) (List.range 3) ha

/-- FX55 leaves a protected byte (R194). -/
theorem State.memRead_storeRegs_of_protected (x : Reg) {a : Nat} (ha : Protected s a) :
    (s.storeRegs x).memRead a = s.memRead a :=
  memRead_foldl_memWrite_of_protected s (fun k : Reg => s.ea k.val) s.getV (regsUpTo x) ha

/-! ## The load -/

/-- All a run of register writes does, when the byte depends on the register alone: the listed registers take theirs. -/
theorem getV_foldl_setV (val : Reg → Byte) (l : List Reg) (r : Reg) :
    (l.foldl (fun t k => t.setV k (val k)) s).getV r = if r ∈ l then val r else s.getV r := by
  induction l generalizing s with
  | nil => simp
  | cons k l ih =>
    rw [List.foldl_cons, ih, State.getV_setV]
    by_cases hl : r ∈ l
    · simp [hl]
    · by_cases hk : r = k <;> simp [hl, hk]

/-- FX65 loads V0..Vx and leaves the higher registers (R195). -/
theorem State.getV_loadRegs (x r : Reg) :
    (s.loadRegs x).getV r = if r ≤ x then s.memRead (s.ea r.val) else s.getV r := by
  unfold State.loadRegs
  rw [getV_foldl_setV s (fun k => s.memRead (s.ea k.val))]
  simp only [mem_regsUpTo]

end

/-! ## The instructions -/

/-- Settles O44: each byte is the register's unless its write was discarded, and the move of I comes after the stores,
which leave I alone. -/
theorem ldMemVxStoresTheRegisters : Obligations.LdMemVxStoresTheRegisters := by
  unfold Obligations.LdMemVxStoresTheRegisters
  intro s x
  have hbytes : ∀ k ≤ x, Component.byte (s.ea k.val) ∈ (List.range (x.val + 1)).map fun k => .byte (s.ea k) :=
    fun k hk => List.mem_map.2 ⟨k.val, List.mem_range.2 (Nat.lt_succ_of_le hk), rfl⟩
  have hstores := writes_storeRegs x hbytes
  obtain ⟨-, -, hcfg, -⟩ := hstores.keeps
  have hindex := State.stepIndex_i_cases (hstores.same .i (by simp)) hcfg x
  have hwrites := (writes_storeRegs x fun k hk => List.mem_cons_of_mem .i (hbytes k hk)).stepIndex (by simp) x
  refine ⟨rfl, completes_of_advance rfl hwrites ⟨fun _ => rfl, ?stored, ?discarded, hindex⟩⟩
  case stored =>
    intro k hk hopen
    rw [State.memRead_advanced, State.memRead_stepIndex]
    exact s.memRead_storeRegs_ea x hk ((writeProtected_eq_false_iff _ _).2 hopen)
  case discarded =>
    intro a ha
    rw [State.memRead_advanced, State.memRead_stepIndex]
    exact s.memRead_storeRegs_of_protected x ha

/-- Settles O45: every byte is read from `s` itself, before I moves. -/
theorem ldVxMemLoadsTheRegisters : Obligations.LdVxMemLoadsTheRegisters := by
  unfold Obligations.LdVxMemLoadsTheRegisters
  intro s x
  have hregs : ∀ k ≤ x, Component.v k ∈ (regsUpTo x).map .v :=
    fun k hk => List.mem_map_of_mem ((mem_regsUpTo x k).2 hk)
  have hloads := writes_loadRegs (s := s) x hregs
  obtain ⟨-, -, hcfg, -⟩ := hloads.keeps
  have hindex := State.stepIndex_i_cases (hloads.same .i (by simp)) hcfg x
  have hwrites := (writes_loadRegs (s := s) x fun k hk => List.mem_cons_of_mem .i (hregs k hk)).stepIndex (by simp) x
  refine ⟨rfl, completes_of_advance rfl hwrites ⟨?loaded, ?kept, hindex⟩⟩
  case loaded =>
    intro k hk
    rw [State.getV_advanced, State.getV_stepIndex, State.getV_loadRegs, if_pos hk]
    rfl
  case kept =>
    intro k hk
    rw [State.getV_advanced, State.getV_stepIndex, State.getV_loadRegs, if_neg hk.not_ge]

/-- Settles O43: the byte at EA(k) is digit k unless its write was discarded, each write on its own. -/
theorem ldBStoresTheDecimalDigits : Obligations.LdBStoresTheDecimalDigits := by
  unfold Obligations.LdBStoresTheDecimalDigits
  intro s x
  obtain ⟨h100, h10, h1⟩ := digits_toNat (s.getV x)
  have hdigit {k : Nat} (hk : k < 3) (hopen : ¬ Protected s (s.ea k)) :
      ((s.storeBcd (s.getV x)).memRead (s.ea k)).toNat = (bcdDigit (s.getV x) k).toNat :=
    congrArg _ (s.memRead_storeBcd_ea _ hk ((writeProtected_eq_false_iff _ _).2 hopen))
  have hwrites : Writes (· ∈ [.byte (s.ea 0), .byte (s.ea 1), .byte (s.ea 2)]) s (s.storeBcd (s.getV x)) :=
    writes_storeBcd _ fun k hk => by interval_cases k <;> simp
  refine ⟨rfl, completes_of_advance rfl hwrites
    ⟨fun _ => rfl, fun h => ?hundreds, fun h => ?tens, fun h => ?ones, fun a ha => ?discarded⟩⟩
  case hundreds => exact (hdigit (by decide) h).trans h100
  case tens => exact (hdigit (by decide) h).trans h10
  case ones => exact (hdigit (by decide) h).trans h1
  case discarded => exact s.memRead_storeBcd_of_protected _ ha

/-- Settles O42: each sets I to a value that its 12-bit mask keeps, except the sum of FX1E, which it wraps (R25). -/
theorem indexInstructionsSetI : Obligations.IndexInstructionsSetI := by
  unfold Obligations.IndexInstructionsSetI
  refine fun s x nnn => ⟨rfl, rfl, rfl, fun hnnn => ?ldI, ?addI, ?ldF⟩
  case ldI => exact completes_of_setI rfl (Nat.mod_eq_of_lt hnnn)
  case addI => exact completes_of_setI rfl rfl
  case ldF =>
    have hglyph : glyphAddress (s.getV x) = 0x050 + 5 * ((s.getV x).toNat % 16) := rfl
    exact completes_of_setI rfl (by omega)

end Sys2Proof.Machine
end

section
/-! PROOFS for 44_display.md (R210 to R217). Drawing a set of bits is one relation of the canvas before and after it. Draws
of disjoint sets one after the other are the draw of their union, so the two loops of DXYN, whose passes never meet in a
pixel, draw the sprite as one set. -/

namespace Sys2Proof.Machine

open Sys2Proof.Config

/-! ## Drawing a set of bits -/

/-- `after` is `before` with the pixels of `bits` inverted (R213), and with its collision bit raised if one of them was on
(R214). -/
structure Draws (bits : Nat → Nat → Prop) (before after : Canvas) : Prop where
  pixel_iff : ∀ u v, Framebuffer.pixel after.1 u v = true ↔ ¬ (Framebuffer.pixel before.1 u v = true ↔ bits u v)
  collision_iff : after.2 = true ↔ before.2 = true ∨ ∃ u v, bits u v ∧ Framebuffer.pixel before.1 u v = true

section

variable {p q : Nat → Nat → Prop} {a b c : Canvas}

theorem Draws.congr (h : Draws p a b) (hpq : ∀ u v, p u v ↔ q u v) : Draws q a b := by
  have hsets : p = q := funext₂ fun u v => propext (hpq u v)
  exact hsets ▸ h

/-- Drawing no bit leaves the canvas. -/
theorem draws_none (hp : ∀ u v, ¬ p u v) : Draws p a a :=
  ⟨fun u v => by simp [hp], by simp [hp]⟩

/-- Two draws that meet in no pixel are one draw: the second finds its pixels as they were before the first. -/
theorem Draws.trans_of_disjoint (h₁ : Draws p a b) (h₂ : Draws q b c) (hpq : ∀ u v, p u v → ¬ q u v) :
    Draws (fun u v => p u v ∨ q u v) a c := by
  have hkept (u v : Nat) (hq : q u v) : Framebuffer.pixel b.1 u v = true ↔ Framebuffer.pixel a.1 u v = true := by
    have hp : ¬ p u v := fun hp => hpq u v hp hq
    have hpixel := h₁.pixel_iff u v
    tauto
  constructor
  case pixel_iff =>
    intro u v
    rw [h₂.pixel_iff, h₁.pixel_iff]
    have hdisjoint := hpq u v
    tauto
  case collision_iff =>
    have hsecond : (∃ u v, q u v ∧ Framebuffer.pixel b.1 u v = true) ↔
        ∃ u v, q u v ∧ Framebuffer.pixel a.1 u v = true :=
      exists₂_congr fun u v => and_congr_right (hkept u v)
    rw [h₂.collision_iff, h₁.collision_iff, hsecond]
    simp only [or_and_right, exists_or, or_assoc]

/-- A loop whose passes draw sets that meet in no pixel draws their union. -/
theorem draws_foldl_range {draw : Canvas → Nat → Canvas} {bits : Nat → Nat → Nat → Prop}
    (hdraw : ∀ canvas k, Draws (bits k) canvas (draw canvas k))
    (hdisjoint : ∀ {j k u v}, bits j u v → bits k u v → j = k) (n : Nat) (canvas : Canvas) :
    Draws (fun u v => ∃ k < n, bits k u v) canvas ((List.range n).foldl draw canvas) := by
  induction n with
  | zero => exact draws_none (by simp)
  | succ n ih =>
    rw [List.range_succ, List.foldl_append]
    have hapart (u v : Nat) : (∃ k < n, bits k u v) → ¬ bits n u v := by
      rintro ⟨k, hk, hbit⟩ hn
      exact hk.ne (hdisjoint hbit hn)
    exact (ih.trans_of_disjoint (hdraw _ n) hapart).congr fun u v => Nat.exists_lt_succ_right.symm

/-- XOR is its own inverse: drawing the same set again restores every pixel (R217). -/
theorem Draws.pixel_twice {d : Canvas} (h₁ : Draws p a b) (h₂ : Draws p c d) (hbc : c.1 = b.1) (u v : Nat) :
    Framebuffer.pixel d.1 u v = Framebuffer.pixel a.1 u v := by
  rw [Bool.eq_iff_iff, h₂.pixel_iff, hbc, h₁.pixel_iff]
  tauto

/-- A drawn pixel is on afterwards exactly when it was off (R213). -/
theorem Draws.pixel_iff_of_bit (h : Draws p a b) {u v : Nat} (hp : p u v) :
    Framebuffer.pixel b.1 u v = true ↔ Framebuffer.pixel a.1 u v = false := by
  rw [h.pixel_iff]
  simp [hp]

end

/-! ## The loops of DXYN -/

/-- Bit `c` of a sprite row lies at pixel (u, v) of the grid and is set (R212). -/
def rowBit (b : Byte) (x0 y c u v : Nat) : Prop :=
  u = x0 + c ∧ v = y ∧ u < fbWidth ∧ v < fbHeight ∧ b.getLsbD (7 - c) = true

section

variable (b : Byte) (x0 y : Nat) (canvas : Canvas)

theorem drawBit_draws (c : Nat) : Draws (rowBit b x0 y c) canvas (drawBit b x0 y canvas c) := by
  constructor
  case pixel_iff =>
    intro u v
    rw [drawBit_pixel, Bool.xor_iff_ne, ne_eq, Bool.eq_iff_iff, decide_eq_true_eq]
    rfl
  case collision_iff =>
    rw [drawBit_collision, Bool.or_eq_true, decide_eq_true_eq]
    refine or_congr_right ⟨?reach, ?only⟩
    case reach => exact fun ⟨hbit, hx, hy, hpixel⟩ => ⟨x0 + c, y, ⟨rfl, rfl, hx, hy, hbit⟩, hpixel⟩
    case only =>
      rintro ⟨u, v, ⟨rfl, rfl, hx, hy, hbit⟩, hpixel⟩
      exact ⟨hbit, hx, hy, hpixel⟩

theorem drawRow_draws : Draws (fun u v => ∃ c < 8, rowBit b x0 y c u v) canvas (drawRow b x0 y canvas) :=
  draws_foldl_range (drawBit_draws b x0 y) (fun hj hk => Nat.add_left_cancel (hj.1.symm.trans hk.1)) 8 canvas

theorem drawSprite_draws (sprite : Nat → Byte) (n : Nat) (fb : Framebuffer) :
    Draws (fun u v => ∃ r < n, ∃ c < 8, rowBit (sprite r) x0 (y + r) c u v) (fb, false)
      (drawSprite sprite x0 y n fb) := by
  have hrow (canvas : Canvas) (r : Nat) := drawRow_draws (sprite r) x0 (y + r) canvas
  refine draws_foldl_range hrow ?rowsDisjoint n (fb, false)
  rintro _ _ _ _ ⟨_, _, -, hj, -⟩ ⟨_, _, -, hk, -⟩
  exact Nat.add_left_cancel (hj.symm.trans hk)

end

/-! ## The instruction -/

/-- The sprite bits that DXYN does not clip (R212). -/
def visibleBit (s : State) (x y : Reg) (n u v : Nat) : Prop := u < 64 ∧ v < 32 ∧ spriteBit s x y n u v

section

variable {s t : State} {x y : Reg} {n : Nat}

/-- The sprite bits in the grid are those that the loops reach, row by row and column by column (R211, R212). -/
theorem rowBit_iff_visibleBit (u v : Nat) :
    (∃ r < n, ∃ c < 8, rowBit (s.memRead (s.ea r)) (s.originX x) (s.originY y + r) c u v) ↔
      visibleBit s x y n u v := by
  constructor
  · rintro ⟨r, hr, c, hc, rfl, rfl, hu, hv, hbit⟩
    refine ⟨hu, hv, Nat.le_add_right _ _, Nat.add_lt_add_left hc _, Nat.le_add_right _ _,
      Nat.add_lt_add_left hr _, ?_⟩
    have hrow : s.originY y + r - (s.getV y).toNat % 32 = r := Nat.add_sub_cancel_left ..
    have hcolumn : s.originX x + c - (s.getV x).toNat % 64 = c := Nat.add_sub_cancel_left ..
    rw [hrow, hcolumn]
    exact hbit
  · rintro ⟨hu, hv, hleft, hright, htop, hbottom, hbit⟩
    exact ⟨v - s.originY y, Nat.sub_lt_left_of_lt_add htop hbottom, u - s.originX x,
      Nat.sub_lt_left_of_lt_add hleft hright, (Nat.add_sub_cancel' hleft).symm, (Nat.add_sub_cancel' htop).symm,
      hu, hv, hbit⟩

theorem State.drawn_draws (s : State) (x y : Reg) (n : Nat) :
    Draws (visibleBit s x y n) (s.fb, false) (s.drawn x y n) :=
  (drawSprite_draws _ _ _ _ _).congr rowBit_iff_visibleBit

/-- VF is 1 exactly when the flag it was written with is set (R22). -/
theorem State.getV_setFlag_eq_one_iff (f : Bool) : (s.setFlag f).getV 15 = 1 ↔ f = true := by
  have hflag : (s.setFlag f).getV 15 = if f then 1 else 0 := s.getV_setFlag 15 f
  rw [hflag]
  cases f <;> decide

theorem exists_visibleBit_iff {P : Nat → Nat → Prop} :
    (∃ u v, visibleBit s x y n u v ∧ P u v) ↔ ∃ u v, u < 64 ∧ v < 32 ∧ spriteBit s x y n u v ∧ P u v := by
  simp only [visibleBit, and_assoc]

/-- All DXYN does to the picture and VF: it draws the unclipped bits, and VF is the collision bit (R210). -/
theorem execDrw_draws (ht : exec (.drw x y n) s = .next t) :
    Draws (visibleBit s x y n) (s.fb, false) (t.fb, decide (t.getV 15 = 1)) := by
  cases ht
  have hcanvas := s.drawn_draws x y n
  refine ⟨hcanvas.pixel_iff, ?_⟩
  rw [decide_eq_true_eq, State.getV_advanced, State.getV_setFlag_eq_one_iff]
  exact hcanvas.collision_iff

/-- VF tells whether a lit pixel was under an unclipped sprite bit (R214). -/
theorem execDrw_collision_iff (ht : exec (.drw x y n) s = .next t) :
    t.getV 15 = 1 ↔ ∃ u v, visibleBit s x y n u v ∧ Framebuffer.pixel s.fb u v = true := by
  simpa using (execDrw_draws ht).collision_iff

/-- The sprite bits depend on the origin, on I and on memory alone (R211, R216). -/
theorem visibleBit_congr {u : State} {x' y' : Reg} (hx : u.getV x' = s.getV x) (hy : u.getV y' = s.getV y)
    (hi : u.i = s.i) (hmem : ∀ a, u.memRead a = s.memRead a) : visibleBit u x' y' n = visibleBit s x y n := by
  funext a b
  simp only [visibleBit, spriteBit, hx, hy, hi, hmem]

end

/-- Settles O47: in the grid the drawn bits are the sprite's, and VF is written with the collision bit. -/
theorem drwXorsTheClippedSprite : Obligations.DrwXorsTheClippedSprite := by
  unfold Obligations.DrwXorsTheClippedSprite
  intro s x y n _
  have hwrites : Writes (· ∈ [.fb, .v 15]) s ((s.setFb (s.drawn x y n).1).setFlag (s.drawn x y n).2) :=
    (Writes.start.setFb (by simp) _).setFlag (by simp [regF]) _
  have hcanvas := execDrw_draws (s := s) (x := x) (y := y) (n := n) rfl
  refine ⟨rfl, completes_of_advance rfl hwrites ⟨fun u v hu hv => ?pixels, ?flag, ?collision⟩⟩
  case pixels => simpa [visibleBit, hu, hv] using hcanvas.pixel_iff u v
  case flag =>
    rw [State.getV_advanced, State.getV_setFlag]
    cases (s.drawn x y n).2 <;> simp [regF]
  case collision => exact (execDrw_collision_iff rfl).trans exists_visibleBit_iff

/-- Settles O48: both draws are of the same bits, so the second undoes the first, and it finds lit just the pixels that
were off. -/
theorem drawingTwiceRestoresThePicture : Obligations.DrawingTwiceRestoresThePicture := by
  unfold Obligations.DrawingTwiceRestoresThePicture
  intro s t u w x y x' y' n hfirst hfb hx hy hi hmem hsecond
  have hbits : visibleBit u x' y' n = visibleBit s x y n := visibleBit_congr hx hy hi hmem
  have hdraw₁ := execDrw_draws hfirst
  have hdraw₂ := execDrw_draws hsecond
  have hcollision₂ := execDrw_collision_iff hsecond
  rw [hbits] at hdraw₂ hcollision₂
  refine ⟨hdraw₁.pixel_twice hdraw₂ hfb, ?first, ?second⟩
  case first => exact (execDrw_collision_iff hfirst).trans exists_visibleBit_iff
  case second =>
    rw [hcollision₂, hfb, ← exists_visibleBit_iff]
    exact exists₂_congr fun a b => and_congr_right hdraw₁.pixel_iff_of_bit

end Sys2Proof.Machine
end

section
/-! PROOFS for 45_timing_input.md (R231 to R236). The key instructions read this EXEC's sample of KEYS: the skips look at
one bit of it, and FX0A at the lowest bit that is set. -/

namespace Sys2Proof.Machine

/-! ## The key instructions -/

section

variable {s : State} {x : Reg} {k : Nat}

/-- A key is the lowest pressed one exactly when it is pressed and no key below it is (R233). -/
theorem State.lowestKey?_eq_some_iff : s.lowestKey? = some k ↔
    k < 16 ∧ s.ports.keys.getLsbD k = true ∧ ∀ j, j < k → s.ports.keys.getLsbD j = false := by
  rw [State.lowestKey?, List.find?_range_eq_some]
  simp only [State.key, List.mem_range, Bool.not_eq_true']
  exact and_left_comm

/-- With a lowest pressed key, FX0A writes its number to Vx and advances (R233). -/
theorem exec_ldVxK_of_key (hkey : s.lowestKey? = some k) :
    exec (.ldVxK x) s = advance (s.setV x (BitVec.ofNat 8 k)) := by
  simp [exec, execLdVxK, advance, hkey]

/-- With no key pressed, FX0A waits (R122, R233). -/
theorem exec_ldVxK_of_no_key (hkeys : s.ports.keys = 0) : exec (.ldVxK x) s = .next s.stalled := by
  simp [exec, execLdVxK, State.lowestKey?_eq_none_iff.2 hkeys]

end

/-- Settles O50: the search of the sample finds the lowest pressed key, whose number fits a byte, or none. -/
theorem ldVxKTakesTheLowestKeyOrWaits : Obligations.LdVxKTakesTheLowestKeyOrWaits := by
  unfold Obligations.LdVxKTakesTheLowestKeyOrWaits
  refine fun s x => ⟨rfl, fun hkeys => ?takes, fun hkeys => ?waits⟩
  case takes =>
    obtain ⟨k, hkey⟩ := Option.ne_none_iff_exists'.1 (mt State.lowestKey?_eq_none_iff.1 hkeys)
    obtain ⟨hk, hdown, hleast⟩ := State.lowestKey?_eq_some_iff.1 hkey
    have hbyte : (BitVec.ofNat 8 k).toNat = k := (BitVec.toNat_ofNat k 8).trans (Nat.mod_eq_of_lt (by omega))
    exact completes_of_setV (exec_ldVxK_of_key hkey) fun t ht => ⟨k, hk, ht ▸ hbyte, hdown, hleast⟩
  case waits => exact ⟨_, exec_ldVxK_of_no_key hkeys, rfl, onlyChanges_setResult s .noProgress⟩

/-- The skip on a condition that does not hold. -/
theorem completes_of_skipIf_not {i : Instr} {s : State} {c : Bool} (hexec : exec i s = skipIf (!c) s) :
    Completes i s (if c then nextAddress s else skipAddress s) [] fun _ => True := by
  cases c <;> exact completes_of_skipIf hexec

/-- Settles O49: both are skips on the bit of KEYS that the low nibble of Vx selects. -/
theorem skipsOnAKey : Obligations.SkipsOnAKey := by
  unfold Obligations.SkipsOnAKey
  rintro s x _ rfl
  exact ⟨rfl, rfl, completes_of_skipIf rfl, completes_of_skipIf_not rfl⟩

/-! ## The timer instructions -/

/-- Settles O51: each writes one register or one timer and advances. -/
theorem timerInstructionsMoveTheTimers : Obligations.TimerInstructionsMoveTheTimers := by
  unfold Obligations.TimerInstructionsMoveTheTimers
  refine fun s x => ⟨rfl, rfl, rfl, ?readDt, ?writeDt, ?writeSt⟩
  case readDt => exact completes_of_setV rfl fun _ ht => ht
  case writeDt => exact completes_of_advance (u := s.setDt (s.getV x)) rfl (.setDt .start (by simp) _) rfl
  case writeSt =>
    have hsound : (s.setSt (s.getV x)).advanced.soundOn = true ↔ s.getV x ≠ 0 := bne_iff_ne
    exact completes_of_advance (u := s.setSt (s.getV x)) rfl (.setSt .start (by simp) _) ⟨rfl, hsound⟩

end Sys2Proof.Machine
end

section
/-! PROOFS for 60_exceptions.md: which fault an EXEC meets (R250 to R258), that a fault changes CTRL alone (R256, R257),
what HALTED lets happen (R259, R263), TICK (R260), and the outputs beside the commands (R273 to R276). The fault an
instruction can raise is said once, in `exec_meetsFault`, and the phase order once, in `cycle_meetsFault`. -/

namespace Sys2Proof.Machine

open Sys2Proof.Config

/-! ## Frames put together -/

section

variable {s t u : State} {first second : List Component}

theorem Same.trans {c : Component} (hst : Same s t c) (htu : Same t u c) : Same s u c := by
  cases c with
  | fb => exact fun x y => (htu x y).trans (hst x y)
  | inputs | schedule => exact ⟨htu.1.trans hst.1, htu.2.trans hst.2⟩
  | _ => exact Eq.trans htu hst

/-- What two changes in a row leave alone. -/
theorem OnlyChanges.trans (hst : OnlyChanges first s t) (htu : OnlyChanges second t u) :
    OnlyChanges (first ++ second) s u := by
  intro c hc
  rw [List.mem_append, not_or] at hc
  exact (hst c hc.1).trans (htu c hc.2)

theorem OnlyChanges.mono (h : OnlyChanges first s t) (hsub : first ⊆ second) : OnlyChanges second s t :=
  fun c hc => h c (mt (@hsub c) hc)

/-- Accepting an EXEC takes it off the script, samples its inputs and sets STARTED (R115, R230). -/
theorem onlyChanges_accepted (s : State) (keys : BitVec 16) (rnd : Byte) (rest : List Command) :
    OnlyChanges [.ctrl, .inputs, .schedule] s (accepted s keys rnd rest) := by
  intro c hc
  cases c with
  | ctrl | inputs | schedule => simp at hc
  | fb => exact fun _ _ => rfl
  | _ => rfl

/-- Issuing a command changes the host's schedule alone (R110). -/
theorem onlyChanges_issued (s : State) : OnlyChanges [.schedule] s s.issued := by
  intro c hc
  unfold State.issued
  cases c with
  | schedule => simp at hc
  | _ => split <;> simp [Same]

end

/-! ## The fault an EXEC meets -/

/-- `t` is how a command that meets `fault` leaves `s`: after fault entry (R256), or in RUN with one of the two results
of a completed EXEC (R111). -/
def MeetsFault (s t : State) : Option (FaultCode × Option Word) → Prop
  | some (code, word) => Faulted s t code word
  | none => t.ctrl = s.ctrl ∧ (t.ports.result = .progress ∨ t.ports.result = .noProgress)

/-- The one fault that an instruction can raise itself: RET on an empty stack, CALL on a full one (R253, R254). -/
def instrFault (s : State) : Instr → Option (FaultCode × Option Word)
  | .ret => if s.sp.val = 0 then some (.stackUnderflow, some (encode .ret)) else none
  | .call nnn => if s.sp.val = 16 then some (.stackOverflow, some (encode (.call nnn))) else none
  | _ => none

section

variable {s : State} {i : Instr}

theorem raiseFault_meetsFault (code : FaultCode) (word : Option Word) :
    ∃ t, raiseFault code word s = .next t ∧ MeetsFault s t (some (code, word)) :=
  raiseFault_faulted s code word

/-- An instruction that may not change CTRL moves PC or waits. -/
theorem exec_meetsFault_none (hctrl : ¬ mayChange i s .ctrl) : ∃ t, exec i s = .next t ∧ MeetsFault s t none := by
  obtain ⟨t, ht⟩ := exec_next i s
  refine ⟨t, ht, ?_⟩
  cases exec_ends_next ht with
  | moved n hu =>
    obtain ⟨-, hkept, -⟩ := hu.keeps
    exact ⟨hkept, .inl rfl⟩
  | stalled => exact ⟨rfl, .inr rfl⟩
  | faulted word hP _ => exact absurd hP hctrl

/-- ALL THE FAULTS OF THE INSTRUCTIONS: each raises the fault of `instrFault`, or none. -/
theorem exec_meetsFault (i : Instr) (s : State) : ∃ t, exec i s = .next t ∧ MeetsFault s t (instrFault s i) := by
  cases i with
  | ret =>
    by_cases hsp : s.sp.val = 0
    · simpa [instrFault, hsp, exec_ret_of_empty hsp] using raiseFault_meetsFault _ _
    · simpa [instrFault, hsp] using exec_meetsFault_none (i := .ret) hsp
  | call nnn =>
    by_cases hsp : s.sp.val = 16
    · simpa [instrFault, hsp, exec_call_of_full nnn hsp] using raiseFault_meetsFault _ _
    · simpa [instrFault, hsp] using exec_meetsFault_none (i := .call nnn) hsp
  | _ => exact exec_meetsFault_none not_false

/-- The words of class 2 are those of CALL (R81, R85). -/
theorem class_eq_two_iff {w : Word} (hdecode : decode w = .instr i) :
    w.toNat / 4096 = 2 ↔ ∃ nnn, i = .call nnn := by
  constructor
  · intro hclass
    have hfield : fieldClass w.toNat = 2 := by
      obtain ⟨hfield, -⟩ := field_values w.toNat
      omega
    have hcall : decode w = .instr (.call (fieldNNN w.toNat)) := by simp [decode, decodeNat, hfield]
    exact ⟨_, Decoded.instr.inj (hdecode.symm.trans hcall)⟩
  · rintro ⟨nnn, rfl⟩
    obtain ⟨hwf, hword⟩ := encodeNat_of_decodeNat w.isLt hdecode
    have hnnn : nnn < 4096 := of_decide_eq_true hwf
    simp only [encodeNat] at hword
    omega

theorem faultOf_of_outOfBounds (hpc : s.pcOutOfBounds = true) : faultOf s = some (.pcOutOfBounds, none) :=
  if_pos (of_decide_eq_true hpc)

/-- Past the fetch, decoding decides (R258). -/
theorem faultOf_of_invalid {why : InvalidWord} (hpc : s.pcOutOfBounds = false)
    (hdecode : decode s.fetchWord = .invalid why) : faultOf s =
      if s.cfg.invalidOpcodePolicy = .fatal then some (.invalidOpcode, some s.fetchWord) else none := by
  have hin : ¬ s.pc.toNat + 1 > 0xFFF := of_decide_eq_false hpc
  unfold State.fetchWord at hdecode
  simp [faultOf, hin, hdecode, State.fetchWord]

/-- Past the fetch and the decode, the instruction's own fault is left (R258): the word is the instruction's own. -/
theorem faultOf_of_instr (hpc : s.pcOutOfBounds = false) (hdecode : decode s.fetchWord = .instr i) :
    faultOf s = instrFault s i := by
  have hin : ¬ s.pc.toNat + 1 > 0xFFF := of_decide_eq_false hpc
  obtain ⟨-, hword⟩ := decodedWordIsTheInstructionsWord _ _ hdecode
  have hclass : (encode i).toNat / 4096 = 2 ↔ ∃ nnn, i = .call nnn := by rw [hword, class_eq_two_iff hdecode]
  unfold State.fetchWord at hdecode hword
  simp only [faultOf, hin, if_false, hdecode]
  rw [← hword]
  cases i <;> simp [instrFault, hclass]

/-- THE PHASE ORDER (R258): a cycle meets the fault of its fetch, else that of its decode, else its instruction's. -/
theorem cycle_meetsFault (s : State) : ∃ t, cycle s = .next t ∧ MeetsFault s t (faultOf s) := by
  obtain ⟨hpc, hcycle⟩ | ⟨hpc, _, hdecode, hcycle⟩ | ⟨hpc, i, hdecode, hcycle⟩ := cycle_cases s <;> rw [hcycle]
  · rw [faultOf_of_outOfBounds hpc]
    exact raiseFault_meetsFault _ _
  · rw [faultOf_of_invalid hpc hdecode]
    obtain ⟨hpolicy, hinvalid⟩ | ⟨hpolicy, hinvalid⟩ := invalidWord_cases s s.fetchWord <;> rw [hinvalid, hpolicy]
    · exact raiseFault_meetsFault _ _
    · exact ⟨_, rfl, rfl, .inl rfl⟩
  · rw [faultOf_of_instr hpc hdecode]
    exact exec_meetsFault i s

end

/-- Settles O10: accepting the EXEC leaves PC, SP, memory and the policy, so the cycle meets the fault of `s` itself. -/
theorem execFaultsExactlyInPhaseOrder : Obligations.ExecFaultsExactlyInPhaseOrder := by
  unfold Obligations.ExecFaultsExactlyInPhaseOrder
  intro s keys rnd rest hscript hrun
  obtain ⟨t, ht, hmeets⟩ := cycle_meetsFault (accepted s keys rnd rest)
  have hsame : faultOf (accepted s keys rnd rest) = faultOf s := rfl
  rw [hsame] at hmeets
  refine ⟨t, (step_exec_of_running hscript hrun).trans ht, fun code word hfault => ?fault, fun hnone => ?none⟩
  case fault => rwa [hfault] at hmeets
  case none => rwa [hnone] at hmeets

/-- Settles O26: by O10 an EXEC that ends HALTED has met a fault, and fault entry changes CTRL and the result alone. -/
theorem faultsArePrecise : Obligations.FaultsArePrecise := by
  unfold Obligations.FaultsArePrecise
  intro s t keys rnd rest hscript hrun ht hhalted
  obtain ⟨t', ht', hfault, hnone⟩ := execFaultsExactlyInPhaseOrder s keys rnd rest hscript hrun
  obtain rfl : t' = t := by simpa [ht] using ht'.symm
  cases hf : faultOf s with
  | none =>
    obtain ⟨hctrl, -⟩ := hnone hf
    have hstill : t'.ctrl.halted = s.ctrl.halted := by rw [hctrl]; rfl
    simp [hhalted, hrun] at hstill
  | some fault =>
    obtain ⟨-, -, hfaultPc, -, -, -, -, -, hframe⟩ := hfault fault.1 fault.2 hf
    have hall := (onlyChanges_accepted s keys rnd rest).trans hframe
    exact ⟨hfaultPc, hall .pc (by simp), hall.mono (by simp)⟩

/-! ## HALTED -/

section

variable {s : State}

/-- In HALTED a command other than RESET puts out its result and does nothing else (R112, R124, R263, R292). -/
theorem runCommand_of_halted (hhalted : s.ctrl.halted = true) {c : Command} (hc : c ≠ .reset) :
    ∃ r, runCommand c s = .next (s.setResult r) := by
  cases c with
  | reset => exact absurd rfl hc
  | load bytes => exact ⟨.loadRefused, by simp [runCommand, loadCommand, State.loadRefused, hhalted]⟩
  | exec keys rnd => exact ⟨.fault s.ctrl.faultCode, by simp [runCommand, execCommand, hhalted]⟩
  | tick => exact ⟨.none, by simp [runCommand, tickCommand, hhalted]⟩

/-- The next command is RESET only where the script says so: an empty script issues EXEC (log 2). -/
theorem State.nextCommand_ne_reset (hscript : ∀ rest, s.ports.script ≠ .reset :: rest) : s.nextCommand ≠ .reset := by
  unfold State.nextCommand
  split
  · nofun
  · next c rest hcons => exact fun hc => hscript rest (hc ▸ hcons)

end

/-- Settles O12: such a step takes a command off the schedule and writes its result. -/
theorem onlyResetLeavesHalted : Obligations.OnlyResetLeavesHalted := by
  unfold Obligations.OnlyResetLeavesHalted
  intro s t hhalted ht hscript
  have hissued := onlyChanges_issued s
  have hctrl : s.issued.ctrl = s.ctrl := hissued .ctrl (by simp)
  obtain ⟨r, hrun⟩ := runCommand_of_halted (s := s.issued) (hctrl ▸ hhalted) (State.nextCommand_ne_reset hscript)
  cases ht.symm.trans hrun
  exact hissued.trans (onlyChanges_setResult _ r)

/-! ## TICK -/

section

variable {s : State} {rest : List Command}

theorem step_tick (hscript : s.ports.script = .tick :: rest) : step s = .next (tickCommand s.issued) := by
  simp [step, runNext, runCommand, State.nextCommand, hscript]

/-- TICK returns nothing and leaves the rest of the host interface (R270). -/
theorem tickCommand_ports (s : State) : (tickCommand s).ports = { s.ports with result := .none } := by
  obtain ⟨-, htick⟩ | ⟨-, htick⟩ := tickCommand_cases s <;> rw [htick] <;> rfl

/-- TICK in RUN counts both timers down (R260). -/
theorem tickCommand_of_running (hrun : s.ctrl.halted = false) :
    (tickCommand s).dt.toNat = s.dt.toNat - 1 ∧ (tickCommand s).st.toNat = s.st.toNat - 1 := by
  obtain ⟨hhalted, -⟩ | ⟨-, htick⟩ := tickCommand_cases s
  · simp [hrun] at hhalted
  · rw [htick]
    exact ⟨countDown_toNat s.dt, countDown_toNat s.st⟩

/-- TICK changes the two timers and the result alone (R260). -/
theorem onlyChanges_tickCommand (s : State) : OnlyChanges [.dt, .st, .result] s (tickCommand s) := by
  intro c hc
  obtain ⟨-, htick⟩ | ⟨-, htick⟩ := tickCommand_cases s <;> rw [htick]
  all_goals
    cases c with
    | dt | st | result => simp at hc
    | _ => simp [Same]

end

/-- Settles O13: the step is TICK after the command is taken off the script; in HALTED it is a command other than RESET
(O12). -/
theorem tickCountsBothTimersDown : Obligations.TickCountsBothTimersDown := by
  unfold Obligations.TickCountsBothTimersDown
  intro s rest hscript
  have hstep := step_tick hscript
  have hissued := onlyChanges_issued s
  have hctrl : s.issued.ctrl = s.ctrl := hissued .ctrl (by simp)
  have hdt : s.issued.dt = s.dt := hissued .dt (by simp)
  have hst : s.issued.st = s.st := hissued .st (by simp)
  have hrest : s.issued.ports.script = rest := by simp [State.issued, hscript]
  have hports := tickCommand_ports s.issued
  refine ⟨_, hstep, hports ▸ hrest, by rw [hports], fun hrun => ?run, fun hhalted => ?halted⟩
  case run =>
    obtain ⟨hdt', hst'⟩ := tickCommand_of_running (hctrl ▸ hrun)
    exact ⟨hdt ▸ hdt', hst ▸ hst', (hissued.trans (onlyChanges_tickCommand s.issued)).mono (by simp)⟩
  case halted => exact onlyResetLeavesHalted s _ hhalted hstep (by simp [hscript])

/-! ## The self-jump -/

/-- Writing PC with its own 12-bit value changes nothing (R24). -/
theorem State.setPc_pc_self {s : State} (hpc : s.pc.toNat < 4096) : s.setPc s.pc.toNat = s := by
  have hmask : mask12 s.pc.toNat = s.pc := BitVec.eq_of_toNat_eq (by simp [Nat.mod_eq_of_lt hpc])
  simp [State.setPc, hmask]

/-- Settles O19: the jump writes PC with its own value, so beside the result only the acceptance of the EXEC is left. -/
theorem jumpToItselfIsAFixedPoint : Obligations.JumpToItselfIsAFixedPoint := by
  unfold Obligations.JumpToItselfIsAFixedPoint
  intro s keys rnd rest hscript hrun hpc hdecode
  have hself : (accepted s keys rnd rest).setPc s.pc.toNat = accepted s keys rnd rest :=
    State.setPc_pc_self (show s.pc.toNat < 4096 by omega)
  have hstep : step s = .next ((accepted s keys rnd rest).setPc s.pc.toNat).committed :=
    (step_exec_of_running hscript hrun).trans (cycle_of_instr (s := accepted s keys rnd rest) hpc hdecode)
  rw [hself] at hstep
  have hframe := (onlyChanges_accepted s keys rnd rest).trans (onlyChanges_setResult _ .progress)
  exact ⟨_, hstep, rfl, rfl, hframe⟩

/-! ## The passive outputs -/

section

variable (s : State) {x y : Nat}

/-- A read in range shows the pixel (R66, R273). -/
theorem State.displayRead_of_inRange (hy : y < 32) (hx : x < 64) : s.displayRead x y = some (s.fb[y])[x] := by
  simp [State.displayRead, Framebuffer.pixel, hy, hx]

/-- A read out of range is refused (R66). -/
theorem State.displayRead_of_outOfRange (h : 64 ≤ x ∨ 32 ≤ y) : s.displayRead x y = none :=
  if_neg (by simp only [fbHeight, fbWidth]; omega)

end

/-- The results with a code are FAULT and PROGRAM_TOO_LARGE (R250). -/
theorem CommandResult.code_eq_none {r : CommandResult} (hload : r ≠ .programTooLarge) (hexec : ∀ c, r ≠ .fault c) :
    r.code = Option.none := by
  cases r with
  | programTooLarge => exact absurd rfl hload
  | fault c => exact absurd rfl (hexec c)
  | _ => rfl

/-- Settles O20: the two ports read the state, and the codes are those of the table of R250. -/
theorem passiveOutputsShowTheState : Obligations.PassiveOutputsShowTheState := by
  unfold Obligations.PassiveOutputsShowTheState
  refine ⟨fun s => ⟨bne_iff_ne, fun _ _ => s.displayRead_of_inRange, fun _ _ => s.displayRead_of_outOfRange⟩,
    rfl, rfl, rfl, rfl, rfl, fun _ => rfl, rfl, fun _ => CommandResult.code_eq_none⟩

end Sys2Proof.Machine
end

section
/-! PROOFS for 70_reset_and_hazards.md: RESET (R291) and LOAD (R292). RESET is compared with the power-on state
(O16); what an accepted image leaves in memory is said once, in `memRead_loadImage`. -/

namespace Sys2Proof.Machine

open Sys2Proof.Config

section

variable {s : State} {c : Command} {rest : List Command}

/-- Taking a command off the script leaves the rest of it (R110). -/
theorem State.issued_script (hscript : s.ports.script = c :: rest) : s.issued.ports.script = rest := by
  simp [State.issued, hscript]

/-- A step runs the script's first command after it is taken off the script (R110). -/
theorem step_of_script (hscript : s.ports.script = c :: rest) : step s = runCommand c s.issued := by
  simp [step, runNext, State.nextCommand, hscript]

end

/-! ## RESET -/

/-- Settles O15: RESET leaves the power-on state (O16) but for the parameters and the script, and its unwritten memory
reads as the FONT of those parameters and zeroes. -/
theorem resetCommandRestoresTheResetState : Obligations.ResetCommandRestoresTheResetState := by
  unfold Obligations.ResetCommandRestoresTheResetState
  intro s rest hscript
  obtain ⟨hv, hi, hpc, hsp, hstack, hdt, hst, hfb, hctrl, -⟩ := powerOnStateHasTheResetValues
  have hcfg : s.issued.cfg = s.cfg := onlyChanges_issued s .cfg (by simp)
  refine ⟨_, step_of_script hscript, hv, hi, hpc, hstack, hsp, hdt, hst, ?font, ?zeroes, hfb, hctrl, hcfg,
    State.issued_script hscript⟩
  case font => exact hcfg ▸ Memory.unlisted_font s.issued.cfg.font
  case zeroes => exact fun _ ha => Memory.unlisted_outside s.issued.cfg.font ha

/-! ## LOAD -/

section

variable {s : State} {bytes : List Byte}

theorem State.loadRefused_iff :
    s.loadRefused = true ↔ s.ctrl.halted = true ∨ s.ctrl.started = true ∨ s.ctrl.loaded = true := by
  simp [State.loadRefused, or_assoc]

theorem loadCommand_of_refused (hrefused : s.loadRefused = true) : loadCommand bytes s = s.setResult .loadRefused :=
  if_pos hrefused

theorem loadCommand_of_tooLarge (hopen : s.loadRefused = false) (hlen : bytes.length > 3584) :
    loadCommand bytes s = s.setResult .programTooLarge := by
  simp [loadCommand, hopen, maxProgramBytes, hlen]

theorem loadCommand_of_fits (hopen : s.loadRefused = false) (hlen : bytes.length ≤ 3584) :
    loadCommand bytes s = (s.loadImage bytes).setResult .loadOk := by
  simp [loadCommand, hopen, maxProgramBytes, hlen.not_gt]

/-- LOAD leaves the rest of the host's script (R110). -/
theorem loadCommand_script (bytes : List Byte) (s : State) :
    (loadCommand bytes s).ports.script = s.ports.script := by
  obtain ⟨-, hload⟩ | ⟨-, -, hload⟩ | ⟨-, -, hload⟩ := loadCommand_cases s bytes <;> rw [hload] <;> rfl

end

section

variable (s : State) (bytes : List Byte)

/-- The bytes that LOAD places, from PROGRAM_BASE up (R292). -/
def imageBytes (length : Nat) : List Component := (List.range length).map fun k => .byte (0x200 + k)

theorem byte_mem_imageBytes {a : Nat} (ha : 0x200 ≤ a ∧ a < 0x200 + bytes.length) :
    Component.byte a ∈ imageBytes bytes.length :=
  List.mem_map.2 ⟨a - 0x200, List.mem_range.2 (by omega), congrArg _ (by omega)⟩

/-- All an accepted image does to memory (R292): the bytes from PROGRAM_BASE up are the image's, every other is kept. -/
theorem State.memRead_loadImage (a : Nat) : (s.loadImage bytes).memRead a =
    if 0x200 ≤ a ∧ a < 0x200 + bytes.length then bytes.getD (a - 0x200) 0 else s.memRead a :=
  Memory.read_storeBytes s.cfg.font s.mem programBase a bytes

/-- Byte k of the image is at PROGRAM_BASE + k. -/
theorem State.memRead_loadImage_getElem {k : Nat} (hk : k < bytes.length) :
    (s.loadImage bytes).memRead (0x200 + k) = bytes[k] := by
  rw [State.memRead_loadImage, if_pos (by omega), Nat.add_sub_cancel_left, List.getD_eq_getElem _ _ hk]

/-- An accepted image changes CTRL and its own bytes (R292). -/
theorem onlyChanges_loadImage : OnlyChanges (.ctrl :: imageBytes bytes.length) s (s.loadImage bytes) := by
  intro c hc
  cases c with
  | ctrl => simp at hc
  | byte a =>
    have hout : ¬ (0x200 ≤ a ∧ a < 0x200 + bytes.length) :=
      fun ha => hc (List.mem_cons_of_mem _ (byte_mem_imageBytes bytes ha))
    exact (s.memRead_loadImage bytes a).trans (if_neg hout)
  | _ => simp [Same, State.loadImage]

end

/-- Settles O14: taking LOAD off the script leaves CTRL, which decides whether LOAD is refused, and each case is one
equation of `loadCommand`. -/
theorem loadFollowsItsThreeCases : Obligations.LoadFollowsItsThreeCases := by
  unfold Obligations.LoadFollowsItsThreeCases
  intro s bytes rest hscript
  have hissued := onlyChanges_issued s
  have hctrl : s.issued.ctrl = s.ctrl := hissued .ctrl (by simp)
  have hsame : s.issued.loadRefused = s.loadRefused := by simp [State.loadRefused, hctrl]
  have hresult (r : CommandResult) : OnlyChanges [.schedule, .result] s (s.issued.setResult r) :=
    hissued.trans (onlyChanges_setResult s.issued r)
  refine ⟨_, step_of_script hscript, (loadCommand_script bytes _).trans (State.issued_script hscript), ?refused,
    ?accepted⟩
  case refused =>
    intro hrefused
    rw [loadCommand_of_refused (hsame.trans (State.loadRefused_iff.2 hrefused))]
    exact ⟨rfl, hresult _⟩
  case accepted =>
    intro hhalted hstarted hloaded
    have hopen : s.issued.loadRefused = false :=
      hsame.trans (by simp [State.loadRefused, hhalted, hstarted, hloaded])
    refine ⟨fun hlen => ?tooLarge, fun hlen => ?placed⟩
    case tooLarge =>
      rw [loadCommand_of_tooLarge hopen hlen]
      exact ⟨rfl, hresult _⟩
    case placed =>
      rw [loadCommand_of_fits hopen hlen]
      have hframe := (hissued.trans (onlyChanges_loadImage s.issued bytes)).trans (onlyChanges_setResult _ .loadOk)
      refine ⟨rfl, congrArg (fun c : Ctrl => { c with loaded := true }) hctrl,
        fun _ hk => s.issued.memRead_loadImage_getElem bytes hk, hframe.mono ?named⟩
      case named =>
        intro c hc
        change c ∈ .ctrl :: .schedule :: .result :: imageBytes bytes.length
        simp only [List.mem_append, List.mem_cons] at hc ⊢
        tauto

end Sys2Proof.Machine
end
